-- ==== Sys2Proof/Word.lean ====
section
/-! DEFINITION. The words of the block: bytes, 16-bit checksums and stream offsets (00_scope.md R7, R8). -/

namespace Sys2Proof

/-- One byte of the input stream, of the Frame Buffer or of a frame (R8). -/
abbrev Byte := BitVec 8

/-- A 16-bit value: KEY, CALC, RX and a frame's checksum field (R15). -/
abbrev Half := BitVec 16

/-- A stream offset of OFFW = 64 bits; addition on it is modulo 2^64 (R7, R20). -/
abbrev Offset := BitVec 64

end Sys2Proof
end

