-- ==== Sys2Proof/Config.lean ====
section
/-! DEFINITION. What an implementation fixes and what the spec leaves without a value: the open parameter REF_SPAN_LO
(00_scope.md R7, 92_eei_decisions.md D9) and the free values. -/

namespace Sys2Proof

/-- The three candidate values of the open parameter REF_SPAN_LO: 2, 4 and 6 (R129, D9). -/
inductive RefSpanLo where
  | two
  | four
  | six
deriving DecidableEq, Repr

/-- The default of REF_SPAN_LO is 4 (R7). -/
def RefSpanLo.default : RefSpanLo := .four

/-- The physical buffer size that serves every type (R7). -/
def Config.capMax : Nat := 308

/-- FREE VALUE (log entry 3): the `w` bits that register number `register` holds after a RESET that ended in CFG_FAILED,
at the `draw`-th such RESET ("these six registers hold no defined value", R17; 93_implementation_defined.md U5). -/
opaque Config.freeBits (w register draw : Nat) : BitVec w

/-- FREE VALUE (log entry 1): the ST bits read before the first RESET (R151, U1). -/
opaque Config.powerOnStBits : BitVec 3

/-- FREE VALUE (log entry 14): what `in_ready` shows before the first RESET when the ST bits happen to be those of SEARCHING;
LEN, N and the pending event are unspecified then (R151, R29). -/
opaque Config.powerOnReady : Bool

end Sys2Proof
end

