-- ==== Sys2Proof/Machine/Bytes.lean ====
section
/-! DEFINITION. Byte order: how 16-bit and 32-bit values are split into wire bytes and assembled from them
(00_scope.md R8, 20_memory.md R37, R38, 30_encoding.md R47). -/

namespace Sys2Proof

/-- `be16(h, l) = 256 h + l` (R8). -/
def be16 (h l : Byte) : Half := h ++ l

/-- Bits 15:8 of a 16-bit value: the earlier wire byte (R37). -/
def hiByte (w : Half) : Byte := w.extractLsb' 8 8

/-- Bits 7:0 of a 16-bit value: the later wire byte (R37). -/
def loByte (w : Half) : Byte := w.extractLsb' 0 8

/-- The header word HDR of R47: the first wire byte is the most significant. -/
def be32 (b0 b1 b2 b3 : Byte) : BitVec 32 := (b0 ++ b1) ++ (b2 ++ b3)

end Sys2Proof
end

