-- ==== Sys2Proof/Syntax.lean ====
section
/-! DEFINITION. The instructions of the block: one constructor per frame type of the packet catalog, that is, per row of
opcode_table.json (00_scope.md R6, 30_encoding.md R45, R46). The operands are what a frame of the type carries besides its
fixed header: the payload bytes at offsets 4 to N - 3, and the 16-bit big-endian checksum field at offsets N - 2 and N - 1. -/

namespace Sys2Proof

/-- A frame of one of the 17 catalog types (R50). The constructors keep the catalog's case-sensitive type ids: `frameS1` and
`frames1` are different types. -/
inductive Instr where
  /-- A1, catalog index 0, N = 39 (R112). -/
  | frameA1 (payload : List Byte) (chk : Half)
  /-- A2, catalog index 1, N = 37 (R113). -/
  | frameA2 (payload : List Byte) (chk : Half)
  /-- S0, catalog index 2, N = 37 (R114). -/
  | frameS0 (payload : List Byte) (chk : Half)
  /-- S1, catalog index 3, N = 31 (R115). -/
  | frameS1 (payload : List Byte) (chk : Half)
  /-- SH, catalog index 4, N = 37 (R116). -/
  | frameSH (payload : List Byte) (chk : Half)
  /-- E3, catalog index 5, N = 39 (R117). -/
  | frameE3 (payload : List Byte) (chk : Half)
  /-- SA, catalog index 6, N = 25 (R118). -/
  | frameSA (payload : List Byte) (chk : Half)
  /-- MG, catalog index 7, N = 35 (R119). -/
  | frameMG (payload : List Byte) (chk : Half)
  /-- z1, catalog index 8, N = 47 (R120). -/
  | framez1 (payload : List Byte) (chk : Half)
  /-- s1, catalog index 9, N = 59 (R121). -/
  | frames1 (payload : List Byte) (chk : Half)
  /-- a2, catalog index 10, N = 55 (R122). -/
  | framea2 (payload : List Byte) (chk : Half)
  /-- e1, catalog index 11, N = 82 (R123). -/
  | framee1 (payload : List Byte) (chk : Half)
  /-- e2, catalog index 12, N = 130 (R124). -/
  | framee2 (payload : List Byte) (chk : Half)
  /-- id, catalog index 13, N = 154 (R125). -/
  | frameid (payload : List Byte) (chk : Half)
  /-- sd, catalog index 14, N = 57 (R126). -/
  | framesd (payload : List Byte) (chk : Half)
  /-- FM, catalog index 15, N = 123 (R127). -/
  | frameFM (payload : List Byte) (chk : Half)
  /-- REF, catalog index 16, N = 127 (R128). -/
  | frameREF (payload : List Byte) (chk : Half)
deriving DecidableEq, Repr

end Sys2Proof
end

