-- ==== Sys2Proof/Machine/Catalog.lean ====
section
/-! DEFINITION. The packet catalog, a constant ROM of 17 entries (30_encoding.md R49, R50), the key lookup performed at
RESET (R51) and the packet definition that RESET loads (10_state.md R16, R17). -/

namespace Sys2Proof

/-- The protocol family FAM (00_scope.md R7): 0 is the short-preamble family, 1 the reference-unit family. -/
inductive Family where
  | sp
  | ref
deriving DecidableEq, Repr

/-- The bit FAM (R7). -/
def Family.bit : Family → BitVec 1
  | .sp => 0
  | .ref => 1

/-- The two preamble bytes of a family, first wire byte high (R17): 55 55 or AF 20. -/
def Family.preamble : Family → Half
  | .sp => 0x5555
  | .ref => 0xAF20

/-- A catalog entry, named by its type id (R50). -/
inductive FrameType where
  | A1
  | A2
  | S0
  | S1
  | SH
  | E3
  | SA
  | MG
  | z1
  | s1
  | a2
  | e1
  | e2
  | id
  | sd
  | FM
  | REF
deriving DecidableEq, Repr

/-- The catalog in index order (R50). -/
def FrameType.all : List FrameType :=
  [.A1, .A2, .S0, .S1, .SH, .E3, .SA, .MG, .z1, .s1, .a2, .e1, .e2, .id, .sd, .FM, .REF]

/-- Column IDX of R50. -/
def FrameType.idx : FrameType → BitVec 5
  | .A1 => 0
  | .A2 => 1
  | .S0 => 2
  | .S1 => 3
  | .SH => 4
  | .E3 => 5
  | .SA => 6
  | .MG => 7
  | .z1 => 8
  | .s1 => 9
  | .a2 => 10
  | .e1 => 11
  | .e2 => 12
  | .id => 13
  | .sd => 14
  | .FM => 15
  | .REF => 16

/-- Column N of R50: the total frame size in bytes. -/
def FrameType.size : FrameType → Nat
  | .A1 => 39
  | .A2 => 37
  | .S0 => 37
  | .S1 => 31
  | .SH => 37
  | .E3 => 39
  | .SA => 25
  | .MG => 35
  | .z1 => 47
  | .s1 => 59
  | .a2 => 55
  | .e1 => 82
  | .e2 => 130
  | .id => 154
  | .sd => 57
  | .FM => 123
  | .REF => 127

/-- Column marker of R50, first wire byte high (R38). For an SP type it is also the KEY (R16). -/
def FrameType.marker : FrameType → Half
  | .A1 => 0x4131
  | .A2 => 0x4132
  | .S0 => 0x5330
  | .S1 => 0x5331
  | .SH => 0x5348
  | .E3 => 0x4533
  | .SA => 0x5341
  | .MG => 0x4D47
  | .z1 => 0x7A31
  | .s1 => 0x7331
  | .a2 => 0x6132
  | .e1 => 0x6531
  | .e2 => 0x6532
  | .id => 0x6964
  | .sd => 0x7364
  | .FM => 0x464D
  | .REF => 0x050D

/-- Column family of R50. -/
def FrameType.family : FrameType → Family
  | .A1 | .A2 | .S0 | .S1 | .SH | .E3 | .SA | .MG | .z1 | .s1 | .a2 | .e1 | .e2 | .id | .sd | .FM => .sp
  | .REF => .ref

/-- Column P of R50: the payload length N - 6. -/
def FrameType.payloadLen (t : FrameType) : Nat := t.size - 6

/-- Column CAP of R50: the logical capacity of the Frame Buffer, 2N. -/
def FrameType.cap (t : FrameType) : Nat := 2 * t.size

/-- Column "header match" of R50 (R47): preamble then marker, first wire byte most significant. -/
def FrameType.headerMatch (t : FrameType) : BitVec 32 := t.family.preamble ++ t.marker

/-- The four header bytes in wire order (R45, R46). -/
def FrameType.header (t : FrameType) : List Byte :=
  [hiByte t.family.preamble, loByte t.family.preamble, hiByte t.marker, loByte t.marker]

/-- The offset REF_SPAN_LO that the open parameter names (D9). -/
def RefSpanLo.offset : RefSpanLo → BitVec 3
  | .two => 2
  | .four => 4
  | .six => 6

/-- SPAN_LO of a type (R17): 2 for SP, REF_SPAN_LO for REF. -/
def FrameType.spanLo (t : FrameType) (r : RefSpanLo) : BitVec 3 :=
  match t.family with
  | .sp => 2
  | .ref => r.offset

/-- `lookup(FAM, KEY)` of R51: REF whatever KEY is when FAM = 1; otherwise the SP entry whose KEY column equals KEY in all
16 bits, if there is one. -/
def lookup (fam : Family) (key : Half) : Option FrameType :=
  match fam with
  | .ref => some .REF
  | .sp => FrameType.all.find? fun t => t.family == .sp && t.marker == key

/-- The configuration registers FAM, KEY, IDX, N, PRE, MARK, SPAN_LO and P, the document's PacketDefinition (R15). -/
structure PacketDefinition where
  /-- FAM, 1 bit. -/
  fam : Family
  /-- KEY, 16 bits. -/
  key : Half
  /-- IDX, 5 bits. -/
  idx : BitVec 5
  /-- N, 8 bits. -/
  n : BitVec 8
  /-- PRE[0]. -/
  pre0 : Byte
  /-- PRE[1]. -/
  pre1 : Byte
  /-- MARK[0]. -/
  mark0 : Byte
  /-- MARK[1]. -/
  mark1 : Byte
  /-- SPAN_LO, 3 bits. -/
  spanLo : BitVec 3
  /-- P, 8 bits. -/
  p : BitVec 8
deriving DecidableEq, Repr

/-- What RESET loads for an entry (R17, R100); `key` is latched as given. -/
def FrameType.definition (t : FrameType) (key : Half) (r : RefSpanLo) : PacketDefinition where
  fam := t.family
  key := key
  idx := t.idx
  n := BitVec.ofNat 8 t.size
  pre0 := hiByte t.family.preamble
  pre1 := loByte t.family.preamble
  mark0 := hiByte t.marker
  mark1 := loByte t.marker
  spanLo := t.spanLo r
  p := BitVec.ofNat 8 (t.size - 6)

/-- What the configuration registers hold after RESET with an unsupported key (R27): FAM and KEY as given, the six derived
registers FREE VALUES of the `draw`-th such RESET (R17, U5; log entry 3). -/
def undefinedDefinition (fam : Family) (key : Half) (draw : Nat) : PacketDefinition where
  fam := fam
  key := key
  idx := Config.freeBits 5 0 draw
  n := Config.freeBits 8 1 draw
  pre0 := Config.freeBits 8 2 draw
  pre1 := Config.freeBits 8 3 draw
  mark0 := Config.freeBits 8 4 draw
  mark1 := Config.freeBits 8 5 draw
  spanLo := Config.freeBits 3 6 draw
  p := Config.freeBits 8 7 draw

/-- The catalog entry of an instruction. -/
def Instr.type : Instr → FrameType
  | .frameA1 _ _ => .A1
  | .frameA2 _ _ => .A2
  | .frameS0 _ _ => .S0
  | .frameS1 _ _ => .S1
  | .frameSH _ _ => .SH
  | .frameE3 _ _ => .E3
  | .frameSA _ _ => .SA
  | .frameMG _ _ => .MG
  | .framez1 _ _ => .z1
  | .frames1 _ _ => .s1
  | .framea2 _ _ => .a2
  | .framee1 _ _ => .e1
  | .framee2 _ _ => .e2
  | .frameid _ _ => .id
  | .framesd _ _ => .sd
  | .frameFM _ _ => .FM
  | .frameREF _ _ => .REF

/-- The payload operand of an instruction. -/
def Instr.payload : Instr → List Byte
  | .frameA1 p _ => p
  | .frameA2 p _ => p
  | .frameS0 p _ => p
  | .frameS1 p _ => p
  | .frameSH p _ => p
  | .frameE3 p _ => p
  | .frameSA p _ => p
  | .frameMG p _ => p
  | .framez1 p _ => p
  | .frames1 p _ => p
  | .framea2 p _ => p
  | .framee1 p _ => p
  | .framee2 p _ => p
  | .frameid p _ => p
  | .framesd p _ => p
  | .frameFM p _ => p
  | .frameREF p _ => p

/-- The checksum-field operand of an instruction. -/
def Instr.chk : Instr → Half
  | .frameA1 _ c => c
  | .frameA2 _ c => c
  | .frameS0 _ c => c
  | .frameS1 _ c => c
  | .frameSH _ c => c
  | .frameE3 _ c => c
  | .frameSA _ c => c
  | .frameMG _ c => c
  | .framez1 _ c => c
  | .frames1 _ c => c
  | .framea2 _ c => c
  | .framee1 _ c => c
  | .framee2 _ c => c
  | .frameid _ c => c
  | .framesd _ c => c
  | .frameFM _ c => c
  | .frameREF _ c => c

/-- The instruction of a catalog entry with the given operands. -/
def FrameType.instr (t : FrameType) (payload : List Byte) (chk : Half) : Instr :=
  match t with
  | .A1 => .frameA1 payload chk
  | .A2 => .frameA2 payload chk
  | .S0 => .frameS0 payload chk
  | .S1 => .frameS1 payload chk
  | .SH => .frameSH payload chk
  | .E3 => .frameE3 payload chk
  | .SA => .frameSA payload chk
  | .MG => .frameMG payload chk
  | .z1 => .framez1 payload chk
  | .s1 => .frames1 payload chk
  | .a2 => .framea2 payload chk
  | .e1 => .framee1 payload chk
  | .e2 => .framee2 payload chk
  | .id => .frameid payload chk
  | .sd => .framesd payload chk
  | .FM => .frameFM payload chk
  | .REF => .frameREF payload chk

end Sys2Proof
end

