-- ==== Sys2Proof/WellFormed.lean ====
section
/-! DEFINITION. When an instruction is a frame of its type: a frame has a fixed size, so its payload operand has exactly
P = N - 6 bytes (30_encoding.md R45, R46, R57, R58). Every checksum field value is admitted: whether it is the right one is
what CHECK decides. -/

namespace Sys2Proof

/-- The payload has the length the type fixes (R57: "It requires len(payload) = P of the type"). -/
def Instr.wf (i : Instr) : Bool := i.payload.length == i.type.payloadLen

end Sys2Proof
end

