-- ==== Sys2Proof/Decode.lean ====
section
/-! DEFINITION. The decoder of frames, total on any bytes and rejecting by name, the encoder, and the reading of a word of
opcode_table.json (30_encoding.md R45 to R47, R55, R59). Decoding looks at the header only: the size of the frame follows
from the type, and no payload or checksum byte decides anything (R55). -/

namespace Sys2Proof

/-- Why bytes are not a frame. -/
inductive DecodeError where
  /-- Fewer than the four header bytes. -/
  | shortHeader
  /-- The header word is none of the 17 match values ("not a frame start", R53). -/
  | unknownHeader
  /-- The header is one of the 17, and fewer than N bytes are there. -/
  | truncated
deriving DecidableEq, Repr

/-- The catalog entry whose match value equals the four bytes, all 32 bits compared (R47, R59). -/
def FrameType.ofHeader (b0 b1 b2 b3 : Byte) : Option FrameType :=
  FrameType.all.find? fun t => t.headerMatch == be32 b0 b1 b2 b3

/-- The operands of a frame of type `t`, from the bytes after its header: P payload bytes, the checksum's high byte and its
low byte (R45, R46), and the bytes that follow the frame. -/
def decodeBody (t : FrameType) (body : List Byte) : Except DecodeError (Instr × List Byte) :=
  match body.drop t.payloadLen with
  | h :: l :: rest => .ok (t.instr (body.take t.payloadLen) (be16 h l), rest)
  | _ => .error .truncated

/-- The frame at the head of a byte sequence, and the bytes after it. -/
def decode : List Byte → Except DecodeError (Instr × List Byte)
  | b0 :: b1 :: b2 :: b3 :: body =>
    match FrameType.ofHeader b0 b1 b2 b3 with
    | some t => decodeBody t body
    | none => .error .unknownHeader
  | _ => .error .shortHeader

/-- The bytes of a frame in wire order (R45, R46): header, payload, checksum high byte, checksum low byte. -/
def encodeFrame (t : FrameType) (payload : List Byte) (chk : Half) : List Byte :=
  t.header ++ (payload ++ [hiByte chk, loByte chk])

/-- The bytes of an instruction. -/
def encode (i : Instr) : List Byte := encodeFrame i.type i.payload i.chk

/-- The four wire bytes of a 32-bit word, the most significant first (R47). -/
def beBytes32 (w : Nat) : List Byte :=
  [BitVec.ofNat 8 (w / 2 ^ 24), BitVec.ofNat 8 (w / 2 ^ 16), BitVec.ofNat 8 (w / 2 ^ 8), BitVec.ofNat 8 w]

/-- The wire bytes of `count` 32-bit words, word 0 the lowest 32 bits of `w` and the first on the wire. -/
def wordsBytes : Nat → Nat → List Byte
  | 0, _ => []
  | count + 1, w => beBytes32 (w % 2 ^ 32) ++ wordsBytes count (w / 2 ^ 32)

/-- The wire bytes of a table word of `nbits` bits followed by zeros up to the longest frame (154 bytes, R50). A table word
is one 32-bit header word. -/
def tableBytes (nbits w : Nat) : List Byte :=
  let words := wordsBytes ((nbits + 31) / 32) (w % 2 ^ nbits)
  words ++ List.replicate (154 - words.length) 0

/-- The instruction the decoder reads from a table word whose further bits are zero. -/
def decodeTableWord (nbits w : Nat) : Option Instr :=
  match decode (tableBytes nbits w) with
  | .ok (i, _) => some i
  | .error _ => none

end Sys2Proof
end

