-- ==== Sys2Proof/Machine/Checksum.lean ====
section
/-! DEFINITION. The two checksum functions (42_validator.md R84, R85), the table form of the first (R86), and the builders
of valid frames (30_encoding.md R57, R58). -/

namespace Sys2Proof.Machine

/-- One step of the CRC register: shift left, and exclusive-or 0x1021 when bit 15 was set (R84). -/
def crcBit (c : Half) : Half :=
  if c.msb then (c <<< 1) ^^^ 0x1021 else c <<< 1

/-- The eight steps made for each byte. -/
def crcSteps (c : Half) : Half :=
  crcBit (crcBit (crcBit (crcBit (crcBit (crcBit (crcBit (crcBit c)))))))

/-- One byte enters the CRC register in its high byte (R84). -/
def crcByte (c : Half) (d : Byte) : Half := crcSteps (c ^^^ (d ++ (0 : Byte)))

/-- `f w`, written so that a reduction computes `w` to a number before it enters `f`. -/
def strictly {w : Nat} {α : Type} (x : BitVec w) (f : BitVec w → α) : α :=
  match x.toNat with
  | 0 => f 0
  | m + 1 => f (BitVec.ofNat w (m + 1))

/-- The CRC register after the bytes of a sequence, first byte first (R84). -/
def crcFrom (c : Half) : List Byte → Half
  | [] => c
  | d :: ds => strictly (crcByte c d) fun c1 => crcFrom c1 ds

/-- `crc16(s)` of R84: initial value 0x1D0F, polynomial 0x1021, most significant bit first, nothing reflected. -/
def crc16 (s : List Byte) : Half := crcFrom 0x1D0F s

/-- Entry `i` of the byte-wise table T of R86 (a): the eight steps applied to 256 i. -/
def crcTable (i : Byte) : Half := crcSteps (i ++ (0 : Byte))

/-- One byte in the table form of R86 (a). -/
def crcByteByTable (c : Half) (d : Byte) : Half := (c <<< 8) ^^^ crcTable (hiByte c ^^^ d)

/-- The table form of crc16, R86 (a). -/
def crc16ByTable (s : List Byte) : Half := s.foldl crcByteByTable 0x1D0F

/-- The accumulators A and B after the bytes of a sequence, as 256 A + B (R85): for each byte A += d, and then the new A
into B, both modulo 256. -/
def sumFrom (a b : Byte) : List Byte → Half
  | [] => be16 a b
  | d :: ds => strictly (a + d) fun a1 => strictly (b + a1) fun b1 => sumFrom a1 b1 ds

/-- `sum16(s)` of R85: A and B start at 0, and A is the high byte of the result. -/
def sum16 (s : List Byte) : Half := sumFrom 0 0 s

/-- The checksum function of a family (R77). -/
def familyChecksum : Family → List Byte → Half
  | .sp => crc16
  | .ref => sum16

/-- The bytes a valid frame's checksum covers, from its offset SPAN_LO to its offset N - 3 (R77). -/
def frameSpan (t : FrameType) (r : RefSpanLo) (payload : List Byte) : List Byte :=
  (t.header ++ payload).drop (t.spanLo r).toNat

/-- The checksum field of a valid frame (R57, R58). -/
def frameChecksum (t : FrameType) (r : RefSpanLo) (payload : List Byte) : Half :=
  familyChecksum t.family (frameSpan t r payload)

/-- `FRAME(type, payload)` of R57 and, for REF with REF_SPAN_LO = 4, `RFRAME(payload)` of R58. -/
def buildFrame (t : FrameType) (r : RefSpanLo) (payload : List Byte) : List Byte :=
  encodeFrame t payload (frameChecksum t r payload)

end Sys2Proof.Machine
end

