-- ==== Sys2Proof/Machine/State.lean ====
section
/-! DEFINITION. The state of one instance of the block as plain data (10_state.md R15 to R27), the events it emits
(60_exceptions.md R131 to R135), the host's requests (44_packet_stream.md R111), and the reasons a step can stop. -/

namespace Sys2Proof.Machine

/-- The values of the state register ST (R19), and the phase before the first RESET (R147), in which ST is unspecified and
only RESET is enabled (R151; log entry 1). The unused codes 6 and 7 have no constructor (U7). -/
inductive St where
  | searching
  | candidate
  | validating
  | emitting
  | streamClosed
  | cfgFailed
  | unreset
deriving DecidableEq, Repr

/-- The causes of a SYNCLOSS (R135). The unused codes 0, 5, 6, 7 have no constructor (U7). -/
inductive Reason where
  | checksumMismatch
  | noPreamble
  | skipped
  | headerMismatch
deriving DecidableEq, Repr

/-- A StreamEvent (R131): FRAME (R132), SYNCLOSS (R133) or EOS (R134), with the fields and widths of those rules. -/
inductive Event where
  | frame (idx : BitVec 5) (off : Offset) (payload : List Byte) (chk : Half)
  | syncLoss (reason : Reason) (off : Offset) (len : BitVec 9) (computed transmitted : Half)
  | eos
deriving DecidableEq, Repr

/-- What the host side presents (R12, R111). -/
inductive Request where
  /-- RESET(FAM, KEY), R100. -/
  | reset (fam : Family) (key : Half)
  /-- PUSH(b), R61. -/
  | push (b : Byte)
  /-- CLOSE, R102. -/
  | close
  /-- Nothing: live mode without data, an empty read (R64, R111). -/
  | nothing
deriving DecidableEq, Repr

/-- The operations of the block other than RESET, which is enabled in every state (R99). -/
inductive Op where
  | push
  | close
  | detect
  | flush
  | skip
  | hslide
  | check
  | accept
  | slide
  | emit
deriving DecidableEq, Repr

/-- The state of one instance (R15). LEN is `State.len`, the length of `buf` (R18; log entry 5). -/
structure State where
  /-- REF_SPAN_LO, the open parameter the model takes as an argument (R7, D9; log entry 4); no operation writes it. -/
  refSpanLo : RefSpanLo
  /-- FAM, KEY, IDX, N, PRE, MARK, SPAN_LO, P (R16, R17). -/
  cfg : PacketDefinition
  /-- BUF, oldest byte first: the byte at offset i is element i (R9, R18). -/
  buf : List Byte
  /-- ST (R19). -/
  st : St
  /-- BASE, 64 bits (R20). -/
  base : Offset
  /-- LOST, 1 bit (R21). -/
  lost : Bool
  /-- CALC, 16 bits (R22). -/
  calcReg : Half
  /-- RX, 16 bits (R22). -/
  rxReg : Half
  /-- EVQ: every event emitted since RESET, in order (R25). -/
  evq : List Event
  /-- The pending-event register: the event the sink has not accepted yet (R26, R108). -/
  pending : Option Event
  /-- The model's own: what the host side will present, oldest first (R12; log entry 6). -/
  requests : List Request
  /-- The model's own: whether the sink is ready at its coming moments, oldest first; when used up it is ready
  (R108, R157; log entry 7). -/
  sink : List Bool
  /-- The model's own: how many times free values have been drawn (log entry 3). -/
  draws : Nat
deriving DecidableEq, Repr

/-- Why the machine stops. Each is met only in states no run from reset reaches (log entries 8, 9, 10). -/
inductive Fault where
  /-- Raised by CHECK, SLIDE and EMIT: a read or a discard of BUF at an offset at or above LEN, where no cell holds a value
  (R10, R18). Safe. -/
  | readPastLen
  /-- Raised by every internal operation: LEN above CAP, which is outside the specification (R34). Safe. -/
  | overCapacity
  /-- Raised by every operation but RESET: the configuration registers hold no catalog entry although the phase is running
  (R17 makes them functions of FAM and KEY). Safe. -/
  | badConfiguration
deriving DecidableEq, Repr

/-- Why there is no step. -/
inductive Refusal where
  /-- Raised by exec for an instruction without a meaning; no arm does. Safe. -/
  | notModelled (mnemonic : String)
  /-- Raised by an operation whose guard is false ("Every pair (state, operation) not listed has no step", R99), and by step
  for a PUSH or CLOSE in STREAM_CLOSED, CFG_FAILED or before the first RESET (R62, R101, R103, R151). Safe. -/
  | noStep (op : Op)
  /-- Raised by a meaning: no internal operation is enabled, ST being SEARCHING with LEN < N (R68), STREAM_CLOSED,
  CFG_FAILED or unreset (R99). Safe. -/
  | noInternalOperation
  /-- Raised by a meaning: the frame does not stand at the head of the buffer, the precondition of R112 to R128. Safe. -/
  | frameNotAtHead
deriving DecidableEq, Repr

/-- LEN, the number of valid bytes in BUF (R18). -/
def State.len (s : State) : Nat := s.buf.length

/-- The configuration registers before the first RESET: unspecified (R151), zero in the model (DESIGN CHOICE, log entry 2). -/
def powerOnDefinition : PacketDefinition where
  fam := .sp
  key := 0
  idx := 0
  n := 0
  pre0 := 0
  pre1 := 0
  mark0 := 0
  mark1 := 0
  spanLo := 0
  p := 0

/-- The machine when power comes on, on which only RESET is enabled (R151; log entry 1). What the operation RESET leaves
(R27) is `opReset`. The registers whose value is unspecified here hold the values R27 gives them after RESET, or zero
(DESIGN CHOICE, log entry 2). -/
def State.reset : State where
  refSpanLo := .default
  cfg := powerOnDefinition
  buf := []
  st := .unreset
  base := 0
  lost := false
  calcReg := 0
  rxReg := 0
  evq := []
  pending := none
  requests := []
  sink := []
  draws := 0

end Sys2Proof.Machine
end

