-- ==== Sys2Proof/Machine/Operands.lean ====
section
/-! DEFINITION. What the operations read: slices of the Frame Buffer at constant offsets from the head (20_memory.md R31),
the header match (30_encoding.md R52), the search for PRE[0] (00_scope.md R10) and the configuration (10_state.md R17). -/

namespace Sys2Proof.Machine

/-- N as a count. -/
def State.n (s : State) : Nat := s.cfg.n.toNat

/-- CAP = 2N (R7). -/
def State.cap (s : State) : Nat := 2 * s.n

/-- `BUF[i]`, which holds a value only for i < LEN (R10, R18). -/
def State.bufByte (s : State) (i : Nat) : Option Byte := s.buf[i]?

/-- The bytes of a list as (address, byte) cells from an address on. -/
def cellsFrom (a : Nat) : List Byte → List Host.Cell
  | [] => []
  | b :: bs => (a, b) :: cellsFrom (a + 1) bs

/-- The Frame Buffer as cells: byte i of `buf` at address i, the offset from the head (R30). An address that is not listed
reads as no value (R18). -/
def State.cells (s : State) : List Host.Cell := cellsFrom 0 s.buf

/-- The canonical form of a memory of cells: addresses strictly rising. -/
def Memory.wf : List Host.Cell → Bool
  | [] => true
  | [_] => true
  | c :: d :: cells => decide (c.1 < d.1) && Memory.wf (d :: cells)

/-- `MemRead(a, n)` (R10): the bytes BUF[a..a+n-1], defined only when a + n ≤ LEN. -/
def State.memRead (s : State) (a n : Nat) : Option (List Byte) :=
  if a + n ≤ s.len then some ((s.buf.drop a).take n) else none

/-- The four header bytes that the configuration compares with: PRE then MARK. -/
def definitionHeader (d : PacketDefinition) : List Byte := [d.pre0, d.pre1, d.mark0, d.mark1]

/-- HDR_MATCH (R52): LEN ≥ 4 and BUF[0..1] = PRE and BUF[2..3] = MARK. -/
def State.hdrMatch (s : State) : Bool := s.buf.take 4 == definitionHeader s.cfg

/-- `find(s, v)` (R10): the least index of a byte equal to `v`. -/
def findByte (v : Byte) : List Byte → Option Nat
  | [] => none
  | b :: bs => if b = v then some 0 else (findByte v bs).map (· + 1)

/-- `find(BUF[0..LEN-1], PRE[0])`, the Synchronizer's search over the whole buffer (R67, R70). -/
def State.findPreamble (s : State) : Option Nat := findByte s.cfg.pre0 s.buf

/-- The bytes the checksum covers, BUF[SPAN_LO..N-3] (R77). -/
def State.span (s : State) : Option (List Byte) :=
  s.memRead s.cfg.spanLo.toNat (s.n - 2 - s.cfg.spanLo.toNat)

/-- RX as CHECK assembles it, 256 BUF[N-2] + BUF[N-1] (R48, R78). -/
def State.checksumField (s : State) : Option Half :=
  match s.bufByte (s.n - 2), s.bufByte (s.n - 1) with
  | some h, some l => some (be16 h l)
  | _, _ => none

/-- The payload BUF[4..N-3], P bytes in wire order (R48, R94). -/
def State.payload (s : State) : Option (List Byte) := s.memRead 4 s.cfg.p.toNat

/-- The registers hold what RESET loads for the type `t` (R17). -/
def State.configuredFor (s : State) (t : FrameType) : Bool :=
  lookup s.cfg.fam s.cfg.key == some t && s.cfg == t.definition s.cfg.key s.refSpanLo

/-- The registers hold what RESET loads for some type. -/
def State.configured (s : State) : Bool :=
  match lookup s.cfg.fam s.cfg.key with
  | some t => s.configuredFor t
  | none => false

/-- The running phase of R147. -/
def St.running : St → Bool
  | .searching | .candidate | .validating | .emitting => true
  | .streamClosed | .cfgFailed | .unreset => false

/-- Idle (R14): ST = SEARCHING and LEN < N. -/
def State.idle (s : State) : Bool := s.st == .searching && decide (s.len < s.n)

/-- Some internal operation is enabled (R104). -/
def State.busy (s : State) : Bool := s.st.running && !s.idle

/-- The host presents a RESET, which takes precedence over every other operation (R100). -/
def State.resetPresented (s : State) : Bool :=
  match s.requests with
  | .reset _ _ :: _ => true
  | _ => false

/-- A frame with these operands stands at the head of the buffer: BUF[0..N-1] are its bytes (R112 to R128). -/
def State.atHead (s : State) (t : FrameType) (payload : List Byte) (chk : Half) : Bool :=
  s.buf.take t.size == encodeFrame t payload chk

end Sys2Proof.Machine
end

