-- ==== Sys2Proof/Machine/Flags.lean ====
section
/-! DEFINITION. The flags: the comparison CALC = RX and the verdict, evaluated and never stored (10_state.md R21, R78), and
the rule when a sync loss is reported, which reads LOST (41_synchronizer.md R73, 60_exceptions.md R139). -/

namespace Sys2Proof.Machine

/-- The comparison CALC = RX, all 16 bits (R78). -/
def State.checksumEqual (s : State) : Bool := s.calcReg == s.rxReg

/-- Which sync losses are reported in EVQ: CHECKSUM_MISMATCH always, the three discard causes only when LOST = 0 (R139). -/
def Reason.reported (r : Reason) (lost : Bool) : Bool :=
  match r with
  | .checksumMismatch => true
  | .noPreamble | .skipped | .headerMismatch => !lost

end Sys2Proof.Machine
end

