-- ==== Sys2Proof/Machine/Ops.lean ====
section
/-! DEFINITION. The named operations every transition is made of: sequencing of outcomes, Append and DropFront
(20_memory.md R32, R33), `emit` (00_scope.md R10), the one entry of a sync loss (60_exceptions.md R144) and its end
(R145), the common guard of the operations, and RESET (44_packet_stream.md R100). -/

namespace Sys2Proof.Machine

/-- What a step answers. -/
abbrev Result := Host.Outcome State Fault Refusal

/-- Go on with `f` from the next state; a fault or a refusal ends the sequence. -/
def andThen (o : Result) (f : State → Result) : Result :=
  match o with
  | .next s => f s
  | .fault r => .fault r
  | .refused r => .refused r

/-- `Append(b)` (R32): one byte at the tail. -/
def State.append (s : State) (b : Byte) : State := { s with buf := s.buf ++ [b] }

/-- `DropFront(k)` (R33): the first `k` bytes are gone, and BASE advances by `k` modulo 2^64. -/
def State.dropFront (s : State) (k : Nat) : State :=
  { s with buf := s.buf.drop k, base := s.base + BitVec.ofNat 64 k }

/-- `emit e` (R10, R25): the event is appended to EVQ and held for the sink (R26, R108). -/
def State.emit (s : State) (e : Event) : State := { s with evq := s.evq ++ [e], pending := some e }

/-- `raise SyncLoss(reason, BASE, len, calc, rx)` (R10), when the cause is to be reported (R139). -/
def State.raiseSyncLoss (s : State) (reason : Reason) (len : Nat) (computed transmitted : Half) : State :=
  if reason.reported s.lost then s.emit (.syncLoss reason s.base (BitVec.ofNat 9 len) computed transmitted) else s

/-- A sync loss, the block's exception (R144): report the span that starts at BASE, discard `k` bytes from the head, set
LOST, and be in SEARCHING. -/
def State.takeSyncLoss (s : State) (reason : Reason) (len : Nat) (computed transmitted : Half) (k : Nat) : State :=
  { ((s.raiseSyncLoss reason len computed transmitted).dropFront k) with lost := true, st := .searching }

/-- The end of a loss episode (R145), part of EMIT: N bytes are consumed, LOST is cleared, and the block is in SEARCHING. -/
def State.endEpisode (s : State) (k : Nat) : State := { (s.dropFront k) with lost := false, st := .searching }

/-- What every operation but RESET has in common: no step where its guard is false (R99), and a fault where the state is
outside the specification (R17, R34; log entries 9, 10). -/
def State.guarded (s : State) (op : Op) (guard : Bool) (result : Result) : Result :=
  if guard then
    if s.configured then
      if s.len ≤ s.cap then result else .fault .overCapacity
    else .fault .badConfiguration
  else .refused (.noStep op)

/-- What RESET does whatever its arguments are (R100): the buffer, BASE, LOST, CALC, RX, EVQ and the pending event are
cleared. -/
def State.cleared (s : State) : State :=
  { s with buf := [], base := 0, lost := false, calcReg := 0, rxReg := 0, evq := [], pending := none }

/-- RESET(FAM, KEY) (R100, R101), enabled in every state. -/
def opReset (fam : Family) (key : Half) (s : State) : State :=
  match lookup fam key with
  | some t => { s.cleared with cfg := t.definition key s.refSpanLo, st := .searching }
  | none => { s.cleared with cfg := undefinedDefinition fam key s.draws, st := .cfgFailed, draws := s.draws + 1 }

end Sys2Proof.Machine
end

