-- ==== Sys2Proof/Machine/Extractor.lean ====
section
/-! DEFINITION. The frame-boundary detector and payload extractor: EMIT (43_payload_extractor.md R92 to R94). -/

namespace Sys2Proof.Machine

/-- EMIT (R93): one FRAME event with the payload, and the frame's N bytes are consumed. DropFront(N) needs LEN ≥ N (R10). -/
def opEmit (s : State) : Result :=
  s.guarded .emit (s.st == .emitting)
    (match s.payload with
     | some payload =>
       if s.n ≤ s.len then .next ((s.emit (.frame s.cfg.idx s.base payload s.rxReg)).endEpisode s.n)
       else .fault .readPastLen
     | none => .fault .readPastLen)

end Sys2Proof.Machine
end

