-- ==== Sys2Proof/Machine/Synchronizer.lean ====
section
/-! DEFINITION. The Synchronizer: DETECT, FLUSH, SKIP and HSLIDE (41_synchronizer.md R67 to R73). -/

namespace Sys2Proof.Machine

/-- ST = SEARCHING and LEN ≥ N, the part the four guards share. -/
def State.fullSearch (s : State) : Bool := s.st == .searching && decide (s.n ≤ s.len)

/-- DETECT (R69). -/
def opDetect (s : State) : Result :=
  s.guarded .detect (s.fullSearch && s.hdrMatch) (.next { s with st := .candidate })

/-- FLUSH (R70): no byte of the buffer equals PRE[0]; all LEN bytes are discarded. -/
def opFlush (s : State) : Result :=
  s.guarded .flush (s.fullSearch && !s.hdrMatch && s.findPreamble == none)
    (.next (s.takeSyncLoss .noPreamble s.len 0 0 s.len))

/-- SKIP (R71): the first PRE[0] stands at `k` > 0; `k` bytes are discarded. -/
def opSkip (s : State) : Result :=
  match s.findPreamble with
  | some (k + 1) =>
    s.guarded .skip (s.fullSearch && !s.hdrMatch) (.next (s.takeSyncLoss .skipped (k + 1) 0 0 (k + 1)))
  | _ => .refused (.noStep .skip)

/-- HSLIDE (R72): BUF[0] = PRE[0] and the header does not match; one byte is discarded. -/
def opHslide (s : State) : Result :=
  s.guarded .hslide (s.fullSearch && !s.hdrMatch && s.findPreamble == some 0)
    (.next (s.takeSyncLoss .headerMismatch 1 0 0 1))

/-- The discard that the search for PRE[0] selects when the header does not match (R67). -/
def discard (s : State) : Result :=
  match s.findPreamble with
  | none => opFlush s
  | some 0 => opHslide s
  | some (_ + 1) => opSkip s

/-- The one operation enabled in SEARCHING with LEN ≥ N (R67, R75). -/
def synchronize (s : State) : Result := if s.hdrMatch then opDetect s else discard s

end Sys2Proof.Machine
end

