-- ==== Sys2Proof/Machine/Validator.lean ====
section
/-! DEFINITION. The Validator: CHECK, ACCEPT and SLIDE (42_validator.md R76 to R82). -/

namespace Sys2Proof.Machine

/-- CHECK (R80): CALC from the span, RX from the checksum field. -/
def opCheck (s : State) : Result :=
  s.guarded .check (s.st == .candidate)
    (match s.span, s.checksumField with
     | some span, some rx =>
       .next { s with calcReg := familyChecksum s.cfg.fam span, rxReg := rx, st := .validating }
     | _, _ => .fault .readPastLen)

/-- ACCEPT (R81). -/
def opAccept (s : State) : Result :=
  s.guarded .accept (s.st == .validating && s.checksumEqual) (.next { s with st := .emitting })

/-- SLIDE (R82): the candidate is reported as rejected and exactly one byte is dropped. DropFront(1) needs LEN ≥ 1 (R10). -/
def opSlide (s : State) : Result :=
  s.guarded .slide (s.st == .validating && !s.checksumEqual)
    (if 1 ≤ s.len then .next (s.takeSyncLoss .checksumMismatch s.n s.calcReg s.rxReg 1)
     else .fault .readPastLen)

end Sys2Proof.Machine
end

