-- ==== Sys2Proof/Machine/Stream.lean ====
section
/-! DEFINITION. The Packet Stream: PUSH (40_byte_input.md R61), CLOSE (44_packet_stream.md R102), the internal operation
enabled in each state (R99, R104), the rule of a frame type (45_frames_short_preamble.md, 46_frame_reference_unit.md), the
sink (R108) and the schedule of all of them (R99, R104, R107). -/

namespace Sys2Proof.Machine

/-- PUSH(b) (R61). -/
def opPush (b : Byte) (s : State) : Result := s.guarded .push s.idle (.next (s.append b))

/-- CLOSE (R102): EOS, the residual bytes dropped without a SYNCLOSS; LOST, CALC and RX keep their values. -/
def opClose (s : State) : Result :=
  s.guarded .close s.idle (.next { ((s.emit .eos).dropFront s.len) with st := .streamClosed })

/-- The verdict on a checked candidate: ACCEPT when CALC = RX, SLIDE otherwise (R99). -/
def judge (s : State) : Result := if s.checksumEqual then opAccept s else opSlide s

/-- The one internal operation enabled in a state (R99, R106), if there is one. -/
def internal (s : State) : Result :=
  match s.st with
  | .searching => if s.n ≤ s.len then synchronize s else .refused .noInternalOperation
  | .candidate => opCheck s
  | .validating => judge s
  | .emitting => opEmit s
  | .streamClosed | .cfgFailed | .unreset => .refused .noInternalOperation

/-- From a verdict to the end of the frame: ACCEPT and EMIT, or SLIDE (R112 to R128). -/
def finishJudged (s : State) : Result :=
  if s.checksumEqual then andThen (opAccept s) opEmit else opSlide s

/-- The pseudocode of R112 to R128 from the operation that ST says is next: DETECT, CHECK, then ACCEPT and EMIT if
CALC = RX, else SLIDE. -/
def frameRule (s : State) : Result :=
  match s.st with
  | .searching => andThen (opDetect s) fun s1 => andThen (opCheck s1) finishJudged
  | .candidate => andThen (opCheck s) finishJudged
  | .validating => finishJudged s
  | .emitting => opEmit s
  | .streamClosed | .cfgFailed | .unreset => .refused .noInternalOperation

/-- One moment of the sink while it is offered an event: it accepts the event if it is ready, and otherwise the block goes
on waiting (R108, R111). -/
def State.sinkMoment (s : State) : State :=
  match s.sink with
  | false :: later => { s with sink := later }
  | true :: later => { s with sink := later, pending := none }
  | [] => { s with pending := none }

/-- What the block does with the frame of type `t` and these operands at the head of the buffer. With an event the sink has
not accepted it waits (R108). With the type configured the frame is processed by its rule (R112 to R128). With another type
configured it is misaligned bytes, and the operation the state selects is performed (R53). -/
def processFrame (t : FrameType) (payload : List Byte) (chk : Half) (s : State) : Result :=
  if s.atHead t payload chk then
    match s.pending with
    | some _ => .next s.sinkMoment
    | none => if s.configuredFor t then frameRule s else internal s
  else .refused .frameNotAtHead

/-- The first RESET among the requests: its arguments and the requests after it. -/
def nextReset : List Request → Option (Family × Half × List Request)
  | [] => none
  | .reset fam key :: later => some (fam, key, later)
  | .push _ :: later => nextReset later
  | .close :: later => nextReset later
  | .nothing :: later => nextReset later

/-- STREAM_CLOSED, CFG_FAILED and the unreset phase, where only RESET has a step (R101, R103, R147, R151). A PUSH or CLOSE
presented there is refused for good (R62), and void when the host goes on to a RESET (R107; log entry 6). -/
def awaitReset (op : Op) (s : State) : Result :=
  match nextReset s.requests with
  | some (fam, key, later) => .next (opReset fam key { s with requests := later })
  | none => .refused (.noStep op)

/-- The oldest request, in a phase where only RESET has a step. -/
def onlyReset (s : State) : Result :=
  match s.requests with
  | [] => .next s
  | .nothing :: later => .next { s with requests := later }
  | .reset fam key :: later => .next (opReset fam key { s with requests := later })
  | .push _ :: _ => awaitReset .push s
  | .close :: _ => awaitReset .close s

/-- The oldest request, taken by the idle block (R104, R111). With nothing presented the block waits (R150). -/
def takeRequest (s : State) : Result :=
  match s.requests with
  | [] => .next s
  | .nothing :: later => .next { s with requests := later }
  | .reset fam key :: later => .next (opReset fam key { s with requests := later })
  | .push b :: later => opPush b { s with requests := later }
  | .close :: later => opClose { s with requests := later }

/-- One operation of the block, of the sink or of the host side (R99, R104): a RESET presented is performed; otherwise an
event not accepted waits for the sink; otherwise the enabled internal operation is performed; otherwise the block is idle
and takes the next request. -/
def operate (s : State) : Result :=
  match s.requests with
  | .reset fam key :: later => .next (opReset fam key { s with requests := later })
  | _ =>
    match s.pending with
    | some _ => .next s.sinkMoment
    | none =>
      if s.st.running then
        if s.idle then takeRequest s else internal s
      else onlyReset s

/-- The frame that stands complete at the head of the buffer of a running block, when no RESET is presented (R6, R52). -/
def State.fetch (s : State) : Option Instr :=
  if s.st.running && !s.resetPresented && decide (s.n ≤ s.len) then
    match decode s.buf with
    | .ok (i, _) => some i
    | .error _ => none
  else none

/-- The state in which the frame that `bytes` begin with stands at the head of the buffer, its type configured as by RESET,
nothing pending and no RESET presented (log entry 11). -/
def State.placeFrame (s : State) (bytes : List Byte) : State :=
  match decode bytes with
  | .ok (i, _) =>
    let key : Half := match i.type.family with
      | .sp => i.type.marker
      | .ref => s.cfg.key
    { s with
      cfg := i.type.definition key s.refSpanLo
      buf := bytes.take i.type.size
      st := .searching
      pending := none
      requests := s.requests.dropWhile fun r => match r with
        | .reset _ _ => true
        | .push _ | .close | .nothing => false }
  | .error _ => { s with buf := bytes, st := .searching, pending := none }

end Sys2Proof.Machine
end

