-- ==== Sys2Proof/Machine/ReferenceUnit.lean ====
section
/-! DEFINITION. The meaning of the one frame type of the reference-unit family (46_frame_reference_unit.md R128). -/

namespace Sys2Proof.Machine

/-- Frame type REF (R128): N = 127, sum16 over BUF[SPAN_LO..124] with SPAN_LO = REF_SPAN_LO, payload BUF[4..124]. -/
def execREF (payload : List Byte) (chk : Half) (s : State) : Result :=
  processFrame .REF payload chk s

end Sys2Proof.Machine
end

