-- ==== Sys2Proof/Machine/ShortPreamble.lean ====
section
/-! DEFINITION. The meanings of the sixteen frame types of the short-preamble family (45_frames_short_preamble.md R112 to
R127). Each is the rule of its catalog entry: the constants N, marker, payload and span offsets of a rule are those of
30_encoding.md R50. -/

namespace Sys2Proof.Machine

/-- Frame type A1 (R112): N = 39, crc16 over BUF[2..36], payload BUF[4..36]. -/
def execA1 (payload : List Byte) (chk : Half) (s : State) : Result :=
  processFrame .A1 payload chk s

/-- Frame type A2 (R113): N = 37, crc16 over BUF[2..34], payload BUF[4..34]. -/
def execA2 (payload : List Byte) (chk : Half) (s : State) : Result :=
  processFrame .A2 payload chk s

/-- Frame type S0 (R114): N = 37, crc16 over BUF[2..34], payload BUF[4..34]. -/
def execS0 (payload : List Byte) (chk : Half) (s : State) : Result :=
  processFrame .S0 payload chk s

/-- Frame type S1 (R115): N = 31, crc16 over BUF[2..28], payload BUF[4..28]. -/
def execS1 (payload : List Byte) (chk : Half) (s : State) : Result :=
  processFrame .S1 payload chk s

/-- Frame type SH (R116): N = 37, crc16 over BUF[2..34], payload BUF[4..34]. -/
def execSH (payload : List Byte) (chk : Half) (s : State) : Result :=
  processFrame .SH payload chk s

/-- Frame type E3 (R117): N = 39, crc16 over BUF[2..36], payload BUF[4..36]. -/
def execE3 (payload : List Byte) (chk : Half) (s : State) : Result :=
  processFrame .E3 payload chk s

/-- Frame type SA (R118): N = 25, crc16 over BUF[2..22], payload BUF[4..22]. -/
def execSA (payload : List Byte) (chk : Half) (s : State) : Result :=
  processFrame .SA payload chk s

/-- Frame type MG (R119): N = 35, crc16 over BUF[2..32], payload BUF[4..32]. -/
def execMG (payload : List Byte) (chk : Half) (s : State) : Result :=
  processFrame .MG payload chk s

/-- Frame type z1 (R120): N = 47, crc16 over BUF[2..44], payload BUF[4..44]. -/
def execz1 (payload : List Byte) (chk : Half) (s : State) : Result :=
  processFrame .z1 payload chk s

/-- Frame type s1 (R121): N = 59, crc16 over BUF[2..56], payload BUF[4..56]. -/
def execs1 (payload : List Byte) (chk : Half) (s : State) : Result :=
  processFrame .s1 payload chk s

/-- Frame type a2 (R122): N = 55, crc16 over BUF[2..52], payload BUF[4..52]. -/
def execa2 (payload : List Byte) (chk : Half) (s : State) : Result :=
  processFrame .a2 payload chk s

/-- Frame type e1 (R123): N = 82, crc16 over BUF[2..79], payload BUF[4..79]. -/
def exece1 (payload : List Byte) (chk : Half) (s : State) : Result :=
  processFrame .e1 payload chk s

/-- Frame type e2 (R124): N = 130, crc16 over BUF[2..127], payload BUF[4..127]. -/
def exece2 (payload : List Byte) (chk : Half) (s : State) : Result :=
  processFrame .e2 payload chk s

/-- Frame type id (R125): N = 154, crc16 over BUF[2..151], payload BUF[4..151]. -/
def execid (payload : List Byte) (chk : Half) (s : State) : Result :=
  processFrame .id payload chk s

/-- Frame type sd (R126): N = 57, crc16 over BUF[2..54], payload BUF[4..54]. -/
def execsd (payload : List Byte) (chk : Half) (s : State) : Result :=
  processFrame .sd payload chk s

/-- Frame type FM (R127): N = 123, crc16 over BUF[2..120], payload BUF[4..120]. -/
def execFM (payload : List Byte) (chk : Half) (s : State) : Result :=
  processFrame .FM payload chk s

end Sys2Proof.Machine
end

