-- ==== Sys2Proof/Machine/Dispatch.lean ====
section
/-! DEFINITION. The dispatch from an instruction to its meaning, one arm per constructor. -/

namespace Sys2Proof.Machine

def exec (i : Instr) (s : State) : Host.Outcome State Fault Refusal :=
  match i with
  | .frameA1 payload chk => Sys2Proof.Machine.execA1 payload chk s
  | .frameA2 payload chk => Sys2Proof.Machine.execA2 payload chk s
  | .frameS0 payload chk => Sys2Proof.Machine.execS0 payload chk s
  | .frameS1 payload chk => Sys2Proof.Machine.execS1 payload chk s
  | .frameSH payload chk => Sys2Proof.Machine.execSH payload chk s
  | .frameE3 payload chk => Sys2Proof.Machine.execE3 payload chk s
  | .frameSA payload chk => Sys2Proof.Machine.execSA payload chk s
  | .frameMG payload chk => Sys2Proof.Machine.execMG payload chk s
  | .framez1 payload chk => Sys2Proof.Machine.execz1 payload chk s
  | .frames1 payload chk => Sys2Proof.Machine.execs1 payload chk s
  | .framea2 payload chk => Sys2Proof.Machine.execa2 payload chk s
  | .framee1 payload chk => Sys2Proof.Machine.exece1 payload chk s
  | .framee2 payload chk => Sys2Proof.Machine.exece2 payload chk s
  | .frameid payload chk => Sys2Proof.Machine.execid payload chk s
  | .framesd payload chk => Sys2Proof.Machine.execsd payload chk s
  | .frameFM payload chk => Sys2Proof.Machine.execFM payload chk s
  | .frameREF payload chk => Sys2Proof.Machine.execREF payload chk s

end Sys2Proof.Machine
end

