-- ==== Sys2Proof/Machine/Step.lean ====
section
/-! DEFINITION. One step of the machine. When a complete catalog frame stands at the head of the buffer of a running block
and no RESET is presented, the step is that frame's instruction; otherwise it is one operation (44_packet_stream.md R99,
R104, R105; log entry 12). -/

namespace Sys2Proof.Machine

/-- One step. -/
def step (s : State) : Host.Outcome State Fault Refusal :=
  match s.fetch with
  | some i => exec i s
  | none => operate s

/-- `s` with the instruction of a table word, its further bits zero, at the head of the buffer and its type configured
(log entry 11). -/
def State.withFetchWord (s : State) (nbits w : Nat) : State := s.placeFrame (tableBytes nbits w)

end Sys2Proof.Machine
end

