-- ==== Sys2Proof/Machine/Instances.lean ====
section
/-! DEFINITION. Several instances of the block: the product of n models, which share nothing (60_exceptions.md R146). -/

namespace Sys2Proof.Machine

/-- Instance number `k` makes one step; the others keep their states (R146). An instance that is not there has none. -/
def stepInstance : Nat → List State → Host.Outcome (List State) Fault Refusal
  | _, [] => .next []
  | 0, s :: others =>
    match step s with
    | .next t => .next (t :: others)
    | .fault r => .fault r
    | .refused r => .refused r
  | k + 1, s :: others =>
    match stepInstance k others with
    | .next ts => .next (s :: ts)
    | .fault r => .fault r
    | .refused r => .refused r

end Sys2Proof.Machine
end

