-- ==== Sys2Proof/Machine/MacroStep.lean ====
section
/-! DEFINITION. The operations by name, the one that is enabled (44_packet_stream.md R99, R106), and runs made of them: a
number of operations, the internal operations until the block is idle (R104), the macro step PUSH* (R105), and PUSH* for
each byte of a sequence (40_byte_input.md R63). In PUSH* `emit` is immediate, as 10_state.md R26 allows: the sink's moments
are steps of `operate`, not of PUSH*. -/

namespace Sys2Proof.Machine

/-- The internal operation enabled in a state (R99): at most one is (R106). -/
def State.enabledOp (s : State) : Option Op :=
  match s.st with
  | .searching =>
    if s.n ≤ s.len then
      if s.hdrMatch then some .detect
      else match s.findPreamble with
        | none => some .flush
        | some 0 => some .hslide
        | some (_ + 1) => some .skip
    else none
  | .candidate => some .check
  | .validating => if s.checksumEqual then some .accept else some .slide
  | .emitting => some .emit
  | .streamClosed | .cfgFailed | .unreset => none

/-- The operation of a given name; `b` is the operand of PUSH. -/
def perform (b : Byte) (op : Op) (s : State) : Result :=
  match op with
  | .push => opPush b s
  | .close => opClose s
  | .detect => opDetect s
  | .flush => opFlush s
  | .skip => opSkip s
  | .hslide => opHslide s
  | .check => opCheck s
  | .accept => opAccept s
  | .slide => opSlide s
  | .emit => opEmit s

/-- `k` operations of the schedule. -/
def runOps : Nat → State → Result
  | 0, s => .next s
  | k + 1, s => andThen (operate s) (runOps k)

/-- At most `k` internal operations, until the block is idle (R104). -/
def drain : Nat → State → Result
  | 0, s => .next s
  | k + 1, s => if s.busy then andThen (internal s) (drain k) else .next s

/-- The names of at most `k` internal operations that follow one another from a state. -/
def opTrace : Nat → State → List Op
  | 0, _ => []
  | k + 1, s =>
    match s.enabledOp with
    | none => []
    | some op =>
      match internal s with
      | .next t => op :: opTrace k t
      | .fault _ => [op]
      | .refused _ => [op]

/-- PUSH* (R105): PUSH(b), then internal operations until idle; after a PUSH at most four (R75). -/
def pushStar (b : Byte) (s : State) : Result := andThen (opPush b s) (drain 4)

/-- PUSH* for each byte of a sequence, in order (R63). -/
def feed : List Byte → State → Result
  | [], s => .next s
  | b :: bs, s => andThen (pushStar b s) (feed bs)

end Sys2Proof.Machine
end

