-- ==== Sys2Proof/Machine/Status.lean ====
section
/-! DEFINITION. What the host and the sink see of the block without changing it: the numeric codes (10_state.md R19,
60_exceptions.md R131, R135), the status registers (10_state.md R24, 44_packet_stream.md R111), the informative ports of
10_state.md R29, and the requests the Byte Source's results amount to (40_byte_input.md R63 to R65). -/

namespace Sys2Proof.Machine

/-- The code of ST (R19); before the first RESET it is unspecified, a FREE VALUE (R151; log entry 1). -/
def St.code : St → BitVec 3
  | .searching => 0
  | .candidate => 1
  | .validating => 2
  | .emitting => 3
  | .streamClosed => 4
  | .cfgFailed => 5
  | .unreset => Config.powerOnStBits

/-- The cause code (R135). -/
def Reason.code : Reason → BitVec 3
  | .checksumMismatch => 1
  | .noPreamble => 2
  | .skipped => 3
  | .headerMismatch => 4

/-- The kind code `out_kind` (R131). -/
def Event.kind : Event → BitVec 2
  | .frame _ _ _ _ => 0
  | .syncLoss _ _ _ _ _ => 1
  | .eos => 2

/-- The status registers the host reads (R24, R111). -/
structure Status where
  /-- ST. -/
  st : BitVec 3
  /-- LEN, 9 bits (R15). -/
  len : BitVec 9
  /-- BASE. -/
  base : Offset
  /-- LOST. -/
  lost : Bool
  /-- CALC. -/
  calcReg : Half
  /-- RX. -/
  rxReg : Half
  /-- The configuration registers. -/
  cfg : PacketDefinition
deriving DecidableEq, Repr

/-- "read status", which changes nothing (R111). Before the first RESET the ST bits are a FREE VALUE (log entry 1) and the
other registers show what `State.reset` holds (DESIGN CHOICE, log entry 2). -/
def State.status (s : State) : Status where
  st := s.st.code
  len := BitVec.ofNat 9 s.len
  base := s.base
  lost := s.lost
  calcReg := s.calcReg
  rxReg := s.rxReg
  cfg := s.cfg

/-- `in_ready` (R29): ST is SEARCHING, LEN < N, and no event is pending. Before the first RESET all three are unspecified
(R151): what the free ST bits leave open is a FREE VALUE (DESIGN CHOICE, log entry 14). -/
def State.inReady (s : State) : Bool :=
  s.st.code == 0 &&
    match s.st with
    | .unreset => Config.powerOnReady
    | .searching | .candidate | .validating | .emitting | .streamClosed | .cfgFailed =>
      decide (s.len < s.n) && s.pending.isNone

/-- `out_valid` (R29): an event is pending. Before the first RESET that is the model's choice: none is (DESIGN CHOICE, log
entry 2). -/
def State.outValid (s : State) : Bool := s.pending.isSome

/-- `out_kind` (R29): the kind of the pending event. -/
def State.outKind (s : State) : Option (BitVec 2) := s.pending.map Event.kind

/-- `cfg_err` (R29): the ST bits are those of CFG_FAILED. Before the first RESET they are a FREE VALUE, and so is this
(DESIGN CHOICE, log entry 14). -/
def State.cfgErr (s : State) : Bool := s.st.code == 5

/-- `closed` (R29): the ST bits are those of STREAM_CLOSED. Before the first RESET they are a FREE VALUE, and so is this
(DESIGN CHOICE, log entry 14). -/
def State.closed (s : State) : Bool := s.st.code == 4

/-- The events the sink has accepted: EVQ without the pending one (R25, R26). -/
def State.delivered (s : State) : List Event :=
  match s.pending with
  | some _ => s.evq.dropLast
  | none => s.evq

/-- A chunk of bytes as requests: one PUSH each, in order (R63); an empty chunk is no PUSH (R64). -/
def chunkRequests (bytes : List Byte) : List Request := bytes.map Request.push

/-- A file replay as requests: its bytes, then CLOSE (R65). -/
def replayRequests (bytes : List Byte) : List Request := chunkRequests bytes ++ [.close]

end Sys2Proof.Machine
end

