-- ==== Sys2Proof/Safety.lean ====
section
/-! DEFINITION. What holds in every safe run, in the terms statements use: the invariants of 10_state.md R28, the stream
position, the order of event offsets (20_memory.md R43), the progress measure (41_synchronizer.md R75), and the form of a
frame type's rule (45_frames_short_preamble.md). -/

namespace Sys2Proof.Machine

/-- The configuration registers hold a catalog entry in the running and the closed phase (R17). -/
abbrev State.cfgInv (s : State) : Prop := s.st.running = true ∨ s.st = .streamClosed → s.configured = true

/-- R28 (a): LEN ≤ N while running. -/
abbrev State.lenInv (s : State) : Prop := s.st.running = true → s.len ≤ s.n

/-- R28 (b): in CANDIDATE, VALIDATING and EMITTING the buffer holds a whole frame whose header matches, and in EMITTING its
checksum was found equal. -/
abbrev State.candidateInv (s : State) : Prop :=
  (s.st = .candidate ∨ s.st = .validating ∨ s.st = .emitting → s.n ≤ s.len ∧ s.hdrMatch = true) ∧
  (s.st = .emitting → s.calcReg = s.rxReg)

/-- In VALIDATING and EMITTING, CALC and RX are what CHECK computes from the frame at the head (R80, R88). -/
abbrev State.checkedInv (s : State) : Prop :=
  s.st = .validating ∨ s.st = .emitting →
    s.span.map (familyChecksum s.cfg.fam) = some s.calcReg ∧ s.checksumField = some s.rxReg

/-- R28 (c): LEN = 0 outside the running phase. -/
abbrev State.emptyInv (s : State) : Prop := s.st.running = false → s.buf = []

/-- R28 (f): EOS is in EVQ exactly in STREAM_CLOSED, once and last. -/
abbrev State.eosInv (s : State) : Prop :=
  if s.st = .streamClosed then s.evq.getLast? = some .eos ∧ Event.eos ∉ s.evq.dropLast else Event.eos ∉ s.evq

/-- R26: the event held for the sink is the newest of EVQ. -/
abbrev State.pendingInv (s : State) : Prop := s.pending = none ∨ s.pending = s.evq.getLast?

/-- The invariant of the machine (R28, R80, R26). -/
abbrev State.Inv (s : State) : Prop :=
  s.cfgInv ∧ s.lenInv ∧ s.candidateInv ∧ s.checkedInv ∧ s.emptyInv ∧ s.eosInv ∧ s.pendingInv

/-- The registers and LEN are those the internal operations are defined for: a catalog entry (R17), and LEN ≤ CAP (R34). -/
abbrev State.InSpec (s : State) : Prop := s.configured = true ∧ s.len ≤ s.cap

/-- The four bytes at the head are the configured header (R52), byte by byte. -/
abbrev State.headerStands (s : State) : Prop :=
  s.bufByte 0 = some s.cfg.pre0 ∧ s.bufByte 1 = some s.cfg.pre1 ∧
    s.bufByte 2 = some s.cfg.mark0 ∧ s.bufByte 3 = some s.cfg.mark1

/-- The first PRE[0] byte of the buffer stands at offset `k` (R10). -/
abbrev State.firstPreambleAt (s : State) (k : Nat) : Prop :=
  s.bufByte k = some s.cfg.pre0 ∧ ∀ j < k, s.bufByte j ≠ some s.cfg.pre0

/-- The stream offset of the next byte to be pushed, BASE + LEN (R20, R28 (d)). -/
def State.position (s : State) : Offset := s.base + BitVec.ofNat 64 s.len

/-- The `off` fields of the FRAME events, in order. -/
def frameOffsets : List Event → List Nat
  | [] => []
  | .frame _ off _ _ :: es => off.toNat :: frameOffsets es
  | .syncLoss _ _ _ _ _ :: es => frameOffsets es
  | .eos :: es => frameOffsets es

/-- The `off` fields of the FRAME and SYNCLOSS events, in order (R43). -/
def eventOffsets : List Event → List Nat
  | [] => []
  | .frame _ off _ _ :: es => off.toNat :: eventOffsets es
  | .syncLoss _ off _ _ _ :: es => off.toNat :: eventOffsets es
  | .eos :: es => eventOffsets es

/-- R28 (e) and R43: FRAME offsets lie at least N apart and N below BASE; all offsets rise and lie at or below BASE. -/
abbrev State.offsetsInv (s : State) : Prop :=
  (frameOffsets s.evq).Pairwise (fun a b => a + s.n ≤ b) ∧ (∀ a ∈ frameOffsets s.evq, a + s.n ≤ s.base.toNat) ∧
  (eventOffsets s.evq).Pairwise (fun a b => a ≤ b) ∧ (∀ a ∈ eventOffsets s.evq, a ≤ s.base.toNat)

/-- How far ST is on the way from a header match to the verdict. -/
def St.stage : St → Nat
  | .candidate => 1
  | .validating => 2
  | .emitting => 3
  | .searching | .streamClosed | .cfgFailed | .unreset => 0

/-- An upper bound on the internal operations still to come (R75): 4 (LEN - N + 1) at most, 0 when idle. -/
def State.work (s : State) : Nat := if s.busy then 4 * (s.len + 1 - s.n) - s.st.stage else 0

/-- The stream bytes at offsets `pos` to `pos + N - 1` are a valid frame of type `t` with payload `payload` (R158). -/
def ValidFrameAt (t : FrameType) (r : RefSpanLo) (payload : List Byte) (bs : List Byte) (pos : Nat) : Prop :=
  payload.length = t.payloadLen ∧ (bs.drop pos).take t.size = buildFrame t r payload

/-- The N bytes at the head of the buffer pass the header test and the checksum test of the configuration. -/
def State.headValid (s : State) : Prop :=
  s.hdrMatch = true ∧ ∃ span rx, s.span = some span ∧ s.checksumField = some rx ∧ familyChecksum s.cfg.fam span = rx

/-- The rule of one frame type (R112 to R128) with its constants spelled out: `cfg` what RESET loads for it, `size` its N, `spanLo` its
SPAN_LO, `sum` its checksum function. From ST = SEARCHING with the frame at the head and no event pending, the instruction,
and the operations it is made of, answer the state after EMIT if the checksum over BUF[SPAN_LO..N-3] is the checksum field,
and the state after SLIDE otherwise. -/
def FrameRule (make : List Byte → Half → Instr) (cfg : State → PacketDefinition) (size : Nat) (spanLo : State → Nat)
    (sum : List Byte → Half) : Prop :=
  ∀ (s : State) (payload : List Byte) (chk : Half),
    s.cfg = cfg s → s.st = .searching → s.pending = none → s.len ≤ 2 * size → payload.length = size - 6 →
    s.buf.take size =
      [(cfg s).pre0, (cfg s).pre1, (cfg s).mark0, (cfg s).mark1] ++ (payload ++ [hiByte chk, loByte chk]) →
    let computed := sum ((s.buf.take (size - 2)).drop (spanLo s))
    let frame := Event.frame (cfg s).idx s.base payload chk
    let loss := Event.syncLoss .checksumMismatch s.base (BitVec.ofNat 9 size) computed chk
    let emitted := { s with
      buf := s.buf.drop size, base := s.base + BitVec.ofNat 64 size, lost := false
      calcReg := computed, rxReg := chk, evq := s.evq ++ [frame], pending := some frame }
    let slid := { s with
      buf := s.buf.drop 1, base := s.base + 1, lost := true
      calcReg := computed, rxReg := chk, evq := s.evq ++ [loss], pending := some loss }
    (computed = chk → exec (make payload chk) s = .next emitted) ∧
    (computed ≠ chk → exec (make payload chk) s = .next slid) ∧
    (s.resetPresented = false → runOps (if computed = chk then 4 else 3) s = exec (make payload chk) s)

end Sys2Proof.Machine
end

