-- ==== Sys2Proof/Certificates/Slice0/Obligations.lean ====
section
/-! DEFINITION. The statements about the machine, for the provers. Each docstring names the rule or section of spec/ it
formalises, and the log entry where the model's own choice enters. -/

open Sys2Proof Sys2Proof.Machine

/-- Frame formats SP and REF (30_encoding.md): the round trip of every frame with every operand. -/
def Obligations.DecodeInvertsEncode : Prop :=
  ∀ (i : Instr) (rest : List Byte), i.wf = true → decode (encode i ++ rest) = .ok (i, rest)

/-- No byte of a frame is dropped by the decoder (30_encoding.md). -/
def Obligations.EncodeInvertsDecode : Prop :=
  ∀ (bs rest : List Byte) (i : Instr), decode bs = .ok (i, rest) → i.wf = true ∧ encode i ++ rest = bs

/-- Column "header match" of the catalog (30_encoding.md section 3). -/
def Obligations.UnknownHeadersAreRejected : Prop :=
  ∀ (b0 b1 b2 b3 : Byte) (body : List Byte),
    decode (b0 :: b1 :: b2 :: b3 :: body) = .error .unknownHeader ↔
      be32 b0 b1 b2 b3 ∉ ([0x55554131, 0x55554132, 0x55555330, 0x55555331, 0x55555348, 0x55554533, 0x55555341,
        0x55554D47, 0x55557A31, 0x55557331, 0x55556132, 0x55556531, 0x55556532, 0x55556964, 0x55557364,
        0x5555464D, 0xAF20050D] : List (BitVec 32))

/-- Header words written out from the catalog (30_encoding.md section 3). -/
def Obligations.TableWordsDecode : Prop :=
  decodeTableWord 32 0x55554131 = some (.frameA1 (List.replicate 33 0) 0) ∧
  decodeTableWord 32 0x55555331 = some (.frameS1 (List.replicate 25 0) 0) ∧
  decodeTableWord 32 0x55557331 = some (.frames1 (List.replicate 53 0) 0) ∧
  decodeTableWord 32 0x55556964 = some (.frameid (List.replicate 148 0) 0) ∧
  decodeTableWord 32 0xAF20050D = some (.frameREF (List.replicate 121 0) 0) ∧
  decodeTableWord 32 0x55555858 = none

/-- The catalog table (30_encoding.md section 3), column by column. -/
def Obligations.CatalogConstants : Prop :=
  (FrameType.all.map fun t => (t.idx, t.size, t.marker, t.headerMatch, t.payloadLen, t.cap, t.spanLo .four)) =
    ([(0, 39, 0x4131, 0x55554131, 33, 78, 2),
     (1, 37, 0x4132, 0x55554132, 31, 74, 2),
     (2, 37, 0x5330, 0x55555330, 31, 74, 2),
     (3, 31, 0x5331, 0x55555331, 25, 62, 2),
     (4, 37, 0x5348, 0x55555348, 31, 74, 2),
     (5, 39, 0x4533, 0x55554533, 33, 78, 2),
     (6, 25, 0x5341, 0x55555341, 19, 50, 2),
     (7, 35, 0x4D47, 0x55554D47, 29, 70, 2),
     (8, 47, 0x7A31, 0x55557A31, 41, 94, 2),
     (9, 59, 0x7331, 0x55557331, 53, 118, 2),
     (10, 55, 0x6132, 0x55556132, 49, 110, 2),
     (11, 82, 0x6531, 0x55556531, 76, 164, 2),
     (12, 130, 0x6532, 0x55556532, 124, 260, 2),
     (13, 154, 0x6964, 0x55556964, 148, 308, 2),
     (14, 57, 0x7364, 0x55557364, 51, 114, 2),
     (15, 123, 0x464D, 0x5555464D, 117, 246, 2),
     (16, 127, 0x050D, 0xAF20050D, 121, 254, 4)] :
      List (BitVec 5 × Nat × BitVec 16 × BitVec 32 × Nat × Nat × BitVec 3))

/-- Key decoding (30_encoding.md section 3). -/
def Obligations.LookupSelectsByKey : Prop :=
  (∀ key : Half, lookup .ref key = some .REF) ∧
  (∀ (key : Half) (t : FrameType), lookup .sp key = some t ↔
      (key, t) ∈ ([(0x4131, .A1), (0x4132, .A2), (0x5330, .S0), (0x5331, .S1), (0x5348, .SH), (0x4533, .E3), (0x5341,
        .SA), (0x4D47, .MG), (0x7A31, .z1), (0x7331, .s1), (0x6132, .a2), (0x6531, .e1), (0x6532, .e2),
        (0x6964, .id), (0x7364, .sd), (0x464D, .FM)] : List (Half × FrameType))) ∧
  (∀ (key : Half) (s : State), (opReset .sp key s).st = .cfgFailed ↔ lookup .sp key = none)

/-- R52. -/
def Obligations.HeaderMatchIsTheHeaderWord : Prop :=
  ∀ s : State,
    (s.hdrMatch = true ↔ 4 ≤ s.len ∧ s.headerStands) ∧
    (∀ (b0 b1 b2 b3 : Byte) (rest : List Byte) (t : FrameType), s.buf = b0 :: b1 :: b2 :: b3 :: rest →
      s.configuredFor t = true → (s.hdrMatch = true ↔ be32 b0 b1 b2 b3 = t.headerMatch)) ∧
    (s.len < s.n → s.enabledOp ≠ some .detect)

/-- Equivalent form (a) of 42_validator.md section 8. -/
def Obligations.Crc16ByTableIsCrc16 : Prop :=
  ∀ s : List Byte, crc16ByTable s = crc16 s

/-- Part (d) of 42_validator.md section 8. -/
def Obligations.Crc16ResidueIsZero : Prop :=
  ∀ s : List Byte, crc16 (s ++ [hiByte (crc16 s), loByte (crc16 s)]) = 0

/-- Part (b) of 42_validator.md section 8. -/
def Obligations.Crc16ErrorIsIndependentOfData : Prop :=
  ∀ s s' e : List Byte, s.length = e.length → s'.length = e.length →
    crc16 (List.zipWith (· ^^^ ·) s e) ^^^ crc16 s = crc16 (List.zipWith (· ^^^ ·) s' e) ^^^ crc16 s'

/-- Single-bit errors, CRC part (42_validator.md section 8). -/
def Obligations.Crc16DetectsEverySingleBit : Prop :=
  ∀ (s : List Byte) (j i : Nat) (d : Byte), s[j]? = some d → i < 8 →
    crc16 (s.set j (d ^^^ BitVec.twoPow 8 i)) ≠ crc16 s

/-- Single-bit errors, dual-sum part (42_validator.md section 8). -/
def Obligations.Sum16DetectsEverySingleBit : Prop :=
  ∀ (s : List Byte) (j i : Nat) (d : Byte), s[j]? = some d → i < 8 →
    sum16 (s.set j (d ^^^ BitVec.twoPow 8 i)) ≠ sum16 s

/-- The weakness of the dual sum (70_reset_and_hazards.md section 3). -/
def Obligations.Sum16MissesPairedTopBits : Prop :=
  ∀ (a m z : List Byte) (d e : Byte), m.length % 2 = 1 →
    sum16 (a ++ (d ^^^ 0x80) :: (m ++ (e ^^^ 0x80) :: z)) = sum16 (a ++ d :: (m ++ e :: z))

/-- Reference values of 42_validator.md sections 6 to 8. -/
def Obligations.ReferenceChecksums : Prop :=
  crc16 [] = 0x1D0F ∧ crc16 [0x00] = 0xCC9C ∧ crc16 [0xFF] = 0xD26C ∧ crc16 [0x53, 0x31] = 0xF95E ∧
  crc16 [0x53, 0x41] = 0x87C9 ∧ crc16 [0x31, 0x32, 0x33, 0x34, 0x35, 0x36, 0x37, 0x38, 0x39] = 0xE5CC ∧
  sum16 [] = 0x0000 ∧ sum16 [0x01] = 0x0101 ∧ sum16 [0x01, 0x02] = 0x0304 ∧ sum16 [0xFF, 0xFF] = 0xFEFD ∧
  sum16 [0x01, 0x02, 0x03, 0x04] = 0x0A14

/-- R69. -/
def Obligations.DetectFollowsItsRule : Prop :=
  ∀ s : State, s.InSpec →
    (s.st = .searching ∧ s.n ≤ s.len ∧ s.headerStands →
      opDetect s = .next { s with st := .candidate } ∧ ({ s with st := .candidate } : State).enabledOp = some .check) ∧
    (¬ (s.st = .searching ∧ s.n ≤ s.len ∧ s.headerStands) → opDetect s = .refused (.noStep .detect))

/-- R70. -/
def Obligations.FlushFollowsItsRule : Prop :=
  ∀ s : State, s.InSpec →
    (s.st = .searching ∧ s.n ≤ s.len ∧ s.cfg.pre0 ∉ s.buf →
      let loss := Event.syncLoss .noPreamble s.base (BitVec.ofNat 9 s.len) 0 0
      let t := { s with
        buf := [], base := s.base + BitVec.ofNat 64 s.len, lost := true
        evq := if s.lost then s.evq else s.evq ++ [loss], pending := if s.lost then s.pending else some loss }
      ¬ s.headerStands ∧ opFlush s = .next t ∧ t.idle = true) ∧
    (¬ (s.st = .searching ∧ s.n ≤ s.len ∧ ¬ s.headerStands ∧ s.cfg.pre0 ∉ s.buf) →
      opFlush s = .refused (.noStep .flush))

/-- R71. -/
def Obligations.SkipFollowsItsRule : Prop :=
  ∀ s : State, s.InSpec →
    (∀ k : Nat, s.st = .searching → s.n ≤ s.len → ¬ s.headerStands → 0 < k → s.firstPreambleAt k →
      let loss := Event.syncLoss .skipped s.base (BitVec.ofNat 9 k) 0 0
      let t := { s with
        buf := s.buf.drop k, base := s.base + BitVec.ofNat 64 k, lost := true
        evq := if s.lost then s.evq else s.evq ++ [loss], pending := if s.lost then s.pending else some loss }
      opSkip s = .next t ∧ t.bufByte 0 = some s.cfg.pre0 ∧ 1 ≤ t.len ∧ (s.len - k < s.n → t.idle = true) ∧
        (s.n ≤ s.len - k → t.enabledOp = some .detect ∨ t.enabledOp = some .hslide)) ∧
    (¬ (s.st = .searching ∧ s.n ≤ s.len ∧ ¬ s.headerStands ∧ ∃ k, 0 < k ∧ s.firstPreambleAt k) →
      opSkip s = .refused (.noStep .skip))

/-- R72. -/
def Obligations.HslideFollowsItsRule : Prop :=
  ∀ s : State, s.InSpec →
    (s.st = .searching ∧ s.n ≤ s.len ∧ ¬ s.headerStands ∧ s.bufByte 0 = some s.cfg.pre0 →
      let loss := Event.syncLoss .headerMismatch s.base 1 0 0
      opHslide s = .next { s with
        buf := s.buf.drop 1, base := s.base + 1, lost := true
        evq := if s.lost then s.evq else s.evq ++ [loss], pending := if s.lost then s.pending else some loss }) ∧
    (¬ (s.st = .searching ∧ s.n ≤ s.len ∧ ¬ s.headerStands ∧ s.bufByte 0 = some s.cfg.pre0) →
      opHslide s = .refused (.noStep .hslide))

/-- R80. -/
def Obligations.CheckFollowsItsRule : Prop :=
  ∀ s : State, s.InSpec →
    (∀ h l : Byte, s.st = .candidate → s.bufByte (s.n - 2) = some h → s.bufByte (s.n - 1) = some l →
      opCheck s = .next { s with
        calcReg := if s.cfg.fam = .sp then crc16 ((s.buf.take (s.n - 2)).drop 2)
          else sum16 ((s.buf.take (s.n - 2)).drop s.cfg.spanLo.toNat)
        rxReg := BitVec.ofNat 16 (256 * h.toNat + l.toNat), st := .validating }) ∧
    (s.st ≠ .candidate → opCheck s = .refused (.noStep .check))

/-- R81. -/
def Obligations.AcceptFollowsItsRule : Prop :=
  ∀ s : State, s.InSpec →
    (s.st = .validating ∧ s.calcReg = s.rxReg →
      opAccept s = .next { s with st := .emitting } ∧ ({ s with st := .emitting } : State).enabledOp = some .emit) ∧
    (¬ (s.st = .validating ∧ s.calcReg = s.rxReg) → opAccept s = .refused (.noStep .accept))

/-- SLIDE (42_validator.md section 5). -/
def Obligations.SlideFollowsItsRule : Prop :=
  ∀ s : State, s.InSpec → 1 ≤ s.len →
    (s.st = .validating ∧ s.calcReg ≠ s.rxReg →
      let loss := Event.syncLoss .checksumMismatch s.base (BitVec.ofNat 9 s.n) s.calcReg s.rxReg
      let t := { s with
        buf := s.buf.drop 1, base := s.base + 1, lost := true, st := .searching
        evq := s.evq ++ [loss], pending := some loss }
      opSlide s = .next t ∧ (s.len = s.n → t.idle = true ∧ t.len = s.n - 1)) ∧
    (¬ (s.st = .validating ∧ s.calcReg ≠ s.rxReg) → opSlide s = .refused (.noStep .slide))

/-- R93. -/
def Obligations.EmitFollowsItsRule : Prop :=
  ∀ s : State, s.InSpec → s.n ≤ s.len →
    (s.st = .emitting →
      let frame := Event.frame s.cfg.idx s.base ((s.buf.take (s.n - 2)).drop 4) s.rxReg
      let t := { s with
        buf := s.buf.drop s.n, base := s.base + BitVec.ofNat 64 s.n, lost := false, st := .searching
        evq := s.evq ++ [frame], pending := some frame }
      opEmit s = .next t ∧ (s.len = s.n → t.buf = [] ∧ t.idle = true)) ∧
    (s.st ≠ .emitting → opEmit s = .refused (.noStep .emit))

/-- R61. -/
def Obligations.PushFollowsItsRule : Prop :=
  ∀ (s : State) (b : Byte), s.configured = true →
    (s.st = .searching ∧ s.len < s.n →
      opPush b s = .next { s with buf := s.buf ++ [b] } ∧ (s.append b).bufByte s.len = some b ∧
        (s.append b).len = s.len + 1 ∧ (s.append b).len ≤ s.n ∧
        ((s.append b).len = s.n → (s.append b).idle = false ∧ (s.append b).enabledOp ≠ none)) ∧
    (¬ (s.st = .searching ∧ s.len < s.n) → opPush b s = .refused (.noStep .push))

/-- CLOSE (44_packet_stream.md section 3). -/
def Obligations.CloseFollowsItsRule : Prop :=
  ∀ s : State, s.configured = true →
    (s.st = .searching ∧ s.len < s.n →
      opClose s = .next { s with
        buf := [], base := s.base + BitVec.ofNat 64 s.len, st := .streamClosed
        evq := s.evq ++ [.eos], pending := some .eos }) ∧
    (¬ (s.st = .searching ∧ s.len < s.n) → opClose s = .refused (.noStep .close))

/-- R100. -/
def Obligations.ResetFollowsItsRule : Prop :=
  ∀ (fam : Family) (key : Half) (s : State),
    (∀ t : FrameType, lookup fam key = some t →
      opReset fam key s = { s with
        cfg := { fam := fam, key := key, idx := t.idx, n := BitVec.ofNat 8 t.size
                 pre0 := if fam = .sp then 0x55 else 0xAF, pre1 := if fam = .sp then 0x55 else 0x20
                 mark0 := hiByte t.marker, mark1 := loByte t.marker
                 spanLo := if fam = .sp then 2 else s.refSpanLo.offset, p := BitVec.ofNat 8 (t.size - 6) }
        st := .searching, buf := [], base := 0, lost := false, calcReg := 0, rxReg := 0, evq := [], pending := none }) ∧
    (lookup fam key = none →
      (opReset fam key s).st = .cfgFailed ∧ (opReset fam key s).cfg.fam = fam ∧ (opReset fam key s).cfg.key = key ∧
      (opReset fam key s).buf = [] ∧ (opReset fam key s).base = 0 ∧ (opReset fam key s).lost = false ∧
      (opReset fam key s).calcReg = 0 ∧ (opReset fam key s).rxReg = 0 ∧ (opReset fam key s).evq = [] ∧
      (opReset fam key s).pending = none) ∧
    (∀ later : List Request, s.requests = .reset fam key :: later →
      step s = .next (opReset fam key { s with requests := later }))

/-- The transition table and determinism (44_packet_stream.md). -/
def Obligations.ExactlyOneInternalOperation : Prop :=
  ∀ (s : State) (b : Byte),
    (∀ op : Op, op ≠ .push → op ≠ .close → (perform b op s = .refused (.noStep op) ↔ s.enabledOp ≠ some op)) ∧
    (∀ op : Op, s.enabledOp = some op → internal s = perform b op s) ∧
    (s.enabledOp = none ↔ s.busy = false) ∧
    (s.busy = true → ∀ b', opPush b' s = .refused (.noStep .push) ∧ opClose s = .refused (.noStep .close))

/-- Progress (41_synchronizer.md section 7); the premises are part (b) of the invariant of 10_state.md section 10 and,
for the second clause, LEN at most CAP (20_memory.md section 2). -/
def Obligations.InternalOperationsMakeProgress : Prop :=
  ∀ s : State, s.candidateInv →
    (∀ t, internal s = .next t →
      t.work < s.work ∧ s.work ≤ 4 * (s.len - s.n + 1) ∧ (t.work = 0 ↔ t.busy = false)) ∧
    (s.InSpec → s.busy = true → ∃ u, drain (4 * (s.len - s.n + 1)) s = .next u ∧ u.idle = true)

/-- R105. -/
def Obligations.MacroStepIsOneOfSixSequences : Prop :=
  ∀ (s : State) (b : Byte), s.Inv → s.idle = true →
    (s.len + 1 < s.n → pushStar b s = .next (s.append b) ∧ opTrace 5 (s.append b) = []) ∧
    (s.len + 1 = s.n → (s.append b).headerStands → (s.append b).headValid →
      opTrace 5 (s.append b) = [.detect, .check, .accept, .emit] ∧
        ∃ u, pushStar b s = .next u ∧ u.idle = true ∧ u.len = 0) ∧
    (s.len + 1 = s.n → (s.append b).headerStands → ¬ (s.append b).headValid →
      opTrace 5 (s.append b) = [.detect, .check, .slide] ∧
        ∃ u, pushStar b s = .next u ∧ u.idle = true ∧ u.len = s.n - 1) ∧
    (s.len + 1 = s.n → ¬ (s.append b).headerStands → s.cfg.pre0 ∉ (s.append b).buf →
      opTrace 5 (s.append b) = [.flush] ∧ ∃ u, pushStar b s = .next u ∧ u.idle = true ∧ u.len = 0) ∧
    (∀ k, s.len + 1 = s.n → ¬ (s.append b).headerStands → 0 < k → (s.append b).firstPreambleAt k →
      opTrace 5 (s.append b) = [.skip] ∧ ∃ u, pushStar b s = .next u ∧ u.idle = true ∧ u.len = s.n - k) ∧
    (s.len + 1 = s.n → ¬ (s.append b).headerStands → (s.append b).firstPreambleAt 0 →
      opTrace 5 (s.append b) = [.hslide] ∧ ∃ u, pushStar b s = .next u ∧ u.idle = true ∧ u.len = s.n - 1)

/-- Any byte value in any position is taken (60_exceptions.md section 2). -/
def Obligations.FeedAlwaysCompletes : Prop :=
  ∀ (bs : List Byte) (s : State), s.Inv → s.idle = true →
    ∃ u, feed bs s = .next u ∧ u.Inv ∧ u.idle = true ∧ u.cfg = s.cfg ∧
      u.position = s.position + BitVec.ofNat 64 bs.length

/-- Chunks, empty reads and file replay (40_byte_input.md section 3). The host side as the list `requests` and the sink
as the list `sink`, ready when used up, are the model's choices (log entries 6 and 7). -/
def Obligations.ChunkingDoesNotMatter : Prop :=
  ∀ (bs : List Byte) (reads last : List Request) (s : State), s.Inv → s.st.running = true →
    (reads.filter fun r => decide (r ≠ .nothing)) = chunkRequests bs → last = [] ∨ last = [.close] →
    s.requests = reads ++ last →
    ∃ (j k : Nat) (t : State),
      Sys2Proof.core.run j s = .next t ∧
      Sys2Proof.core.run k { s with requests := chunkRequests bs ++ last } = .next t ∧
      t.requests = [] ∧ t.pending = none ∧ (last = [] → t.idle = true) ∧ (last = [.close] → t.st = .streamClosed)

/-- The pending-event register delays events and never changes them (10_state.md section 8). That a sink whose list
`sink` is used up is ready is the model's choice (log entry 7), and so is the grain of a step (log entry 12). -/
def Obligations.StepsImplementFeed : Prop :=
  ∀ (bs : List Byte) (s : State), s.Inv → s.idle = true → s.pending = none → s.requests = chunkRequests bs →
    ∃ (u : State) (k : Nat) (left : List Bool), feed bs s = .next u ∧ left <:+ s.sink ∧
      Sys2Proof.core.run k s = .next { u with requests := [], pending := none, sink := left }

/-- The property of 70_reset_and_hazards.md section 3, for fewer than 2^64 bytes. -/
def Obligations.ValidFramesAreNotLost : Prop :=
  ∀ (fam : Family) (key : Half) (t : FrameType) (s : State) (u : State) (bs payload : List Byte) (pos : Nat),
    lookup fam key = some t → bs.length < 2 ^ 64 → ValidFrameAt t s.refSpanLo payload bs pos →
    feed bs (opReset fam key s) = .next u →
    (∀ off ∈ frameOffsets u.evq, ¬ (off < pos ∧ pos < off + t.size)) →
    Event.frame t.idx (BitVec.ofNat 64 pos) payload (frameChecksum t s.refSpanLo payload) ∈ u.evq

/-- The document's property on garbage (43_payload_extractor.md section 2, part c). -/
def Obligations.GarbageThenFrameGivesOneFrame : Prop :=
  ∀ (fam : Family) (key : Half) (t : FrameType) (s : State) (garbage payload : List Byte),
    lookup fam key = some t → garbage.length < 2 ^ 63 → hiByte t.family.preamble ∉ garbage →
    payload.length = t.payloadLen →
    ∃ u, feed (garbage ++ buildFrame t s.refSpanLo payload) (opReset fam key s) = .next u ∧
      u.evq = (if garbage = [] then []
        else if garbage.length < t.size then
          [.syncLoss .skipped 0 (BitVec.ofNat 9 garbage.length) 0 0]
        else [.syncLoss .noPreamble 0 (BitVec.ofNat 9 t.size) 0 0]) ++
        [.frame t.idx (BitVec.ofNat 64 garbage.length) payload (frameChecksum t s.refSpanLo payload)] ∧
      u.st = .searching ∧ u.len = 0 ∧ u.lost = false

/-- Why no frame start is lost (70_reset_and_hazards.md section 3). -/
def Obligations.DiscardsPassNoFrameStart : Prop :=
  ∀ (s t : State) (b : Byte) (op : Op), s.Inv →
    op = .flush ∨ op = .skip ∨ op = .hslide ∨ op = .slide → perform b op s = .next t →
    ∀ j < s.len - t.len, s.bufByte j ≠ some s.cfg.pre0 ∨ (j = 0 ∧ s.n ≤ s.len ∧ ¬ s.headValid)

/-- What follows a SLIDE (42_validator.md section 8). -/
def Obligations.WhatFollowsASlide : Prop :=
  ∀ (s t : State) (b : Byte), s.Inv → opSlide s = .next t →
    t.len + 1 = t.n ∧
    (t.cfg.fam = .sp → (t.append b).enabledOp = some .hslide) ∧
    (t.cfg.fam = .ref → (t.append b).enabledOp = some .skip ∨ (t.append b).enabledOp = some .flush)

/-- The rules of A1, A2, S0, S1, SH, E3, SA, MG (45_frames_short_preamble.md), with the constants of each type written
out. -/
def Obligations.FramesA1ToMGFollowTheirRules : Prop :=
  FrameRule .frameA1 (fun _ => ⟨.sp, 0x4131, 0, 39, 0x55, 0x55, 0x41, 0x31, 2, 33⟩) 39 (fun _ => 2) crc16 ∧
  FrameRule .frameA2 (fun _ => ⟨.sp, 0x4132, 1, 37, 0x55, 0x55, 0x41, 0x32, 2, 31⟩) 37 (fun _ => 2) crc16 ∧
  FrameRule .frameS0 (fun _ => ⟨.sp, 0x5330, 2, 37, 0x55, 0x55, 0x53, 0x30, 2, 31⟩) 37 (fun _ => 2) crc16 ∧
  FrameRule .frameS1 (fun _ => ⟨.sp, 0x5331, 3, 31, 0x55, 0x55, 0x53, 0x31, 2, 25⟩) 31 (fun _ => 2) crc16 ∧
  FrameRule .frameSH (fun _ => ⟨.sp, 0x5348, 4, 37, 0x55, 0x55, 0x53, 0x48, 2, 31⟩) 37 (fun _ => 2) crc16 ∧
  FrameRule .frameE3 (fun _ => ⟨.sp, 0x4533, 5, 39, 0x55, 0x55, 0x45, 0x33, 2, 33⟩) 39 (fun _ => 2) crc16 ∧
  FrameRule .frameSA (fun _ => ⟨.sp, 0x5341, 6, 25, 0x55, 0x55, 0x53, 0x41, 2, 19⟩) 25 (fun _ => 2) crc16 ∧
  FrameRule .frameMG (fun _ => ⟨.sp, 0x4D47, 7, 35, 0x55, 0x55, 0x4D, 0x47, 2, 29⟩) 35 (fun _ => 2) crc16

/-- The rules of z1, s1, a2, e1, e2, id, sd, FM (45_frames_short_preamble.md), with the constants of each type written
out. -/
def Obligations.Framesz1ToFMFollowTheirRules : Prop :=
  FrameRule .framez1 (fun _ => ⟨.sp, 0x7A31, 8, 47, 0x55, 0x55, 0x7A, 0x31, 2, 41⟩) 47 (fun _ => 2) crc16 ∧
  FrameRule .frames1 (fun _ => ⟨.sp, 0x7331, 9, 59, 0x55, 0x55, 0x73, 0x31, 2, 53⟩) 59 (fun _ => 2) crc16 ∧
  FrameRule .framea2 (fun _ => ⟨.sp, 0x6132, 10, 55, 0x55, 0x55, 0x61, 0x32, 2, 49⟩) 55 (fun _ => 2) crc16 ∧
  FrameRule .framee1 (fun _ => ⟨.sp, 0x6531, 11, 82, 0x55, 0x55, 0x65, 0x31, 2, 76⟩) 82 (fun _ => 2) crc16 ∧
  FrameRule .framee2 (fun _ => ⟨.sp, 0x6532, 12, 130, 0x55, 0x55, 0x65, 0x32, 2, 124⟩) 130 (fun _ => 2) crc16 ∧
  FrameRule .frameid (fun _ => ⟨.sp, 0x6964, 13, 154, 0x55, 0x55, 0x69, 0x64, 2, 148⟩) 154 (fun _ => 2) crc16 ∧
  FrameRule .framesd (fun _ => ⟨.sp, 0x7364, 14, 57, 0x55, 0x55, 0x73, 0x64, 2, 51⟩) 57 (fun _ => 2) crc16 ∧
  FrameRule .frameFM (fun _ => ⟨.sp, 0x464D, 15, 123, 0x55, 0x55, 0x46, 0x4D, 2, 117⟩) 123 (fun _ => 2) crc16

/-- The rule of REF (46_frame_reference_unit.md), stated for the parameter REF_SPAN_LO. -/
def Obligations.FrameREFFollowsItsRule : Prop :=
  FrameRule .frameREF (fun s => ⟨.ref, s.cfg.key, 16, 127, 0xAF, 0x20, 0x05, 0x0D, s.refSpanLo.offset, 121⟩)
    127 (fun s => s.refSpanLo.offset.toNat) sum16

/-- Columns Z and C of 95_test_vectors.md section 2.3, REF at its default parameter. -/
def Obligations.FrameWorkedChecksums : Prop :=
  frameChecksum .A1 .four (List.replicate 33 0) = 0xF46A ∧
  frameChecksum .A1 .four ((List.range 33).map fun j => BitVec.ofNat 8 (j + 1)) = 0xAB7A ∧
  frameChecksum .A2 .four (List.replicate 31 0) = 0x9DFC ∧
  frameChecksum .A2 .four ((List.range 31).map fun j => BitVec.ofNat 8 (j + 1)) = 0x4F03 ∧
  frameChecksum .S0 .four (List.replicate 31 0) = 0x7821 ∧
  frameChecksum .S0 .four ((List.range 31).map fun j => BitVec.ofNat 8 (j + 1)) = 0xAADE ∧
  frameChecksum .S1 .four (List.replicate 25 0) = 0x9E27 ∧
  frameChecksum .S1 .four ((List.range 25).map fun j => BitVec.ofNat 8 (j + 1)) = 0x0458 ∧
  frameChecksum .SH .four (List.replicate 31 0) = 0xEC4A ∧
  frameChecksum .SH .four ((List.range 31).map fun j => BitVec.ofNat 8 (j + 1)) = 0x3EB5 ∧
  frameChecksum .E3 .four (List.replicate 33 0) = 0x50F4 ∧
  frameChecksum .E3 .four ((List.range 33).map fun j => BitVec.ofNat 8 (j + 1)) = 0x0FE4 ∧
  frameChecksum .SA .four (List.replicate 19 0) = 0xB508 ∧
  frameChecksum .SA .four ((List.range 19).map fun j => BitVec.ofNat 8 (j + 1)) = 0x19C4 ∧
  frameChecksum .MG .four (List.replicate 29 0) = 0xD2A3 ∧
  frameChecksum .MG .four ((List.range 29).map fun j => BitVec.ofNat 8 (j + 1)) = 0xCDB2 ∧
  frameChecksum .z1 .four (List.replicate 41 0) = 0x9192 ∧
  frameChecksum .z1 .four ((List.range 41).map fun j => BitVec.ofNat 8 (j + 1)) = 0xC73A ∧
  frameChecksum .s1 .four (List.replicate 53 0) = 0xFE1C ∧
  frameChecksum .s1 .four ((List.range 53).map fun j => BitVec.ofNat 8 (j + 1)) = 0xC0BA ∧
  frameChecksum .a2 .four (List.replicate 49 0) = 0x85E6 ∧
  frameChecksum .a2 .four ((List.range 49).map fun j => BitVec.ofNat 8 (j + 1)) = 0x5C07 ∧
  frameChecksum .e1 .four (List.replicate 76 0) = 0x33CD ∧
  frameChecksum .e1 .four ((List.range 76).map fun j => BitVec.ofNat 8 (j + 1)) = 0xF6C0 ∧
  frameChecksum .e2 .four (List.replicate 124 0) = 0x7797 ∧
  frameChecksum .e2 .four ((List.range 124).map fun j => BitVec.ofNat 8 (j + 1)) = 0x8F4F ∧
  frameChecksum .id .four (List.replicate 148 0) = 0x09BA ∧
  frameChecksum .id .four ((List.range 148).map fun j => BitVec.ofNat 8 (j + 1)) = 0x09E2 ∧
  frameChecksum .sd .four (List.replicate 51 0) = 0xE42D ∧
  frameChecksum .sd .four ((List.range 51).map fun j => BitVec.ofNat 8 (j + 1)) = 0xC35A ∧
  frameChecksum .FM .four (List.replicate 117 0) = 0x204D ∧
  frameChecksum .FM .four ((List.range 117).map fun j => BitVec.ofNat 8 (j + 1)) = 0x1FBA ∧
  frameChecksum .REF .four (List.replicate 121 0) = 0x0000 ∧
  frameChecksum .REF .four ((List.range 121).map fun j => BitVec.ofNat 8 (j + 1)) = 0xD51D

/-- The pseudocode of every frame type is made of the operations (00_scope.md section 4). That an instruction may start
from CANDIDATE, VALIDATING or EMITTING, with the operations that are left, is the model's choice (log entry 12). -/
def Obligations.FrameIsItsOperations : Prop :=
  ∀ (i : Instr) (s : State), i.wf = true → s.configuredFor i.type = true →
    s.atHead i.type i.payload i.chk = true → s.st.running = true → s.pending = none → s.resetPresented = false →
    ∃ k, 1 ≤ k ∧ k ≤ 4 ∧ runOps k s = exec i s

/-- Unrecognized encodings, part (a) (30_encoding.md section 4). That the instruction of a type that is not configured
is exactly one operation is the model's choice (log entry 12); the spec says that its bytes are discarded piece by
piece. -/
def Obligations.OtherTypesAreGarbage : Prop :=
  ∀ (i : Instr) (t : FrameType) (s : State), s.configuredFor t = true → t ≠ i.type →
    s.atHead i.type i.payload i.chk = true → s.st = .searching → s.n ≤ s.len → s.len ≤ s.cap → s.pending = none →
    ∃ u, exec i s = .next u ∧ frameOffsets u.evq = frameOffsets s.evq ∧ u.lost = true ∧
      (t.family = i.type.family → opHslide s = .next u) ∧
      (t.family ≠ i.type.family → opSkip s = .next u ∨ opFlush s = .next u)

/-- The event output (44_packet_stream.md section 5). That an instruction met with an event pending is one moment of the
sink is the model's choice (log entry 12), and so is it that a sink whose list is used up is ready (log entry 7). -/
def Obligations.FramesWaitForTheSink : Prop :=
  ∀ (i : Instr) (s : State) (e : Event), s.atHead i.type i.payload i.chk = true → s.pending = some e →
    exec i s = .next s.sinkMoment

/-- The precondition of every frame rule, and states outside the specification. The faults are the model's (log entries
8, 9, 10). -/
def Obligations.StopsStandOutsideTheRules : Prop :=
  (∀ (i : Instr) (s : State), s.buf.take i.type.size ≠ encode i → exec i s = .refused .frameNotAtHead) ∧
  (∀ s : State, s.InSpec → s.st = .candidate → s.len < s.n → opCheck s = .fault .readPastLen) ∧
  (∀ s : State, s.configured = true → s.cap < s.len → s.st.running = true → internal s = .fault .overCapacity) ∧
  (∀ s : State, s.configured = false → s.st.running = true → s.busy = true → internal s = .fault .badConfiguration)

/-- Access rights (10_state.md section 7) and DropFront (20_memory.md section 2). -/
def Obligations.FramesKeepTheirFrame : Prop :=
  ∀ (i : Instr) (s t : State), exec i s = .next t →
    t.cfg = s.cfg ∧ t.refSpanLo = s.refSpanLo ∧ t.requests = s.requests ∧ t.draws = s.draws ∧
    (s.pending = none → t.sink = s.sink) ∧
    t.len ≤ s.len ∧ (∀ a, t.bufByte a = s.bufByte (s.len - t.len + a)) ∧ t.position = s.position ∧
    (t.evq = s.evq ∨ ∃ e, t.evq = s.evq ++ [e] ∧ t.pending = some e)

/-- Instructions are frames (00_scope.md section 4). That one step is the whole frame instruction is the model's choice
(log entry 12): 44_packet_stream.md section 4 leaves the grain of the step to the model. -/
def Obligations.StepRunsTheDecodedInstruction : Prop :=
  ∀ (s : State) (i : Instr) (rest : List Byte), decode s.buf = .ok (i, rest) → s.st.running = true →
    s.n ≤ s.len → s.resetPresented = false → step s = exec i s

/-- Scheduling (44_packet_stream.md sections 4 and 7). That a step without a frame of the configured type is one
operation, and not PUSH*, is the model's choice (log entry 12); so are the host side as the list `requests` (log entry
6) and the sink as the list `sink` (log entry 7). -/
def Obligations.StepWithoutAFrameIsOneOperation : Prop :=
  ∀ s : State,
    ((∀ i, s.fetch = some i → s.configuredFor i.type = false) → step s = operate s ∧
      (s.resetPresented = false → s.pending = none → s.busy = true → step s = internal s)) ∧
    (∀ fam key later, s.requests = .reset fam key :: later →
      step s = .next (opReset fam key { s with requests := later })) ∧
    (∀ e, s.pending = some e → s.resetPresented = false → step s = .next s.sinkMoment) ∧
    (s.idle = true → s.pending = none →
      (∀ b later, s.configured = true → s.requests = .push b :: later →
        step s = .next { s with requests := later, buf := s.buf ++ [b] }) ∧
      (∀ later, s.configured = true → s.requests = .close :: later →
        step s = .next { s with
          requests := later, buf := [], base := s.base + BitVec.ofNat 64 s.len, st := .streamClosed
          evq := s.evq ++ [.eos], pending := some .eos }) ∧
      (∀ later, s.requests = .nothing :: later → step s = .next { s with requests := later }) ∧
      (s.requests = [] → step s = .next s))

/-- Invariants (10_state.md section 10). The register values of State.reset are the model's (log entries 1 and 2). -/
def Obligations.ResetEstablishesTheInvariant : Prop :=
  State.reset.Inv ∧ State.reset.offsetsInv ∧
  ∀ (fam : Family) (key : Half) (s : State), (opReset fam key s).Inv ∧ (opReset fam key s).offsetsInv

/-- Invariants (a), (b), (c), (f) of 10_state.md section 10. -/
def Obligations.StepKeepsTheInvariant : Prop :=
  ∀ s t : State, s.Inv → step s = .next t → t.Inv

/-- Invariant (e) of 10_state.md section 10, and event order (20_memory.md section 7). -/
def Obligations.StepKeepsOffsetOrder : Prop :=
  ∀ s t : State, s.Inv → s.offsetsInv → s.base.toNat + s.len < 2 ^ 64 → step s = .next t → t.offsetsInv

/-- What is not a fault (60_exceptions.md section 2). -/
def Obligations.NothingFaults : Prop :=
  ∀ (s : State) (r : Fault), s.Inv → step s ≠ .fault r

/-- PUSH when the guard is false (40_byte_input.md section 2). That a later RESET voids the refused requests is the
model's choice (log entry 6). -/
def Obligations.OnlyLateRequestsAreRefused : Prop :=
  ∀ (s : State) (r : Refusal), s.Inv → step s = .refused r →
    s.st.running = false ∧ nextReset s.requests = none ∧
    ((∃ b later, s.requests = .push b :: later ∧ r = .noStep .push) ∨
     (∃ later, s.requests = .close :: later ∧ r = .noStep .close))

/-- Configuration coherence (20_memory.md section 7). -/
def Obligations.ConfigurationChangesOnlyAtReset : Prop :=
  ∀ s t : State, step s = .next t → t.cfg ≠ s.cfg ∨ t.draws ≠ s.draws →
    ∃ fam key later, nextReset s.requests = some (fam, key, later) ∧ t = opReset fam key { s with requests := later }

/-- At most one event (60_exceptions.md section 4). -/
def Obligations.AtMostOneEventPerStep : Prop :=
  ∀ s t : State, step s = .next t →
    t.evq = s.evq ∨ (∃ e, t.evq = s.evq ++ [e] ∧ t.pending = some e) ∨
    (∃ fam key later, nextReset s.requests = some (fam, key, later) ∧
      t = opReset fam key { s with requests := later } ∧ t.evq = [])

/-- Backpressure (44_packet_stream.md section 5). That an exhausted `sink` is ready is the model's choice (log entry 7).
-/
def Obligations.PendingEventHoldsTheBlock : Prop :=
  ∀ (s : State) (e : Event), s.pending = some e → s.resetPresented = false →
    step s = .next s.sinkMoment ∧
    (∀ later, s.sink = false :: later → s.sinkMoment = { s with sink := later }) ∧
    (∀ later, s.sink = true :: later → s.sinkMoment = { s with sink := later, pending := none }) ∧
    (s.sink = [] → s.sinkMoment = { s with pending := none })

/-- STREAM_CLOSED is terminal (44_packet_stream.md section 3). The unreset phase as a value of ST is the model's (log
entry 1). That a PUSH or CLOSE presented there is refused when no RESET follows it, and void when one does, is the
model's reading (log entry 6). -/
def Obligations.OnlyResetLeavesAFinalPhase : Prop :=
  ∀ s : State, s.st = .streamClosed ∨ s.st = .cfgFailed ∨ s.st = .unreset → s.pending = none →
    (nextReset s.requests = none → ∀ b later, s.requests = .push b :: later → step s = .refused (.noStep .push)) ∧
    (nextReset s.requests = none → ∀ later, s.requests = .close :: later → step s = .refused (.noStep .close)) ∧
    (∀ t, nextReset s.requests = none → step s = .next t → t = { s with requests := t.requests }) ∧
    (∀ fam key later, s.requests = .reset fam key :: later →
      step s = .next (opReset fam key { s with requests := later })) ∧
    (s.requests = [] → step s = .next s) ∧
    (∀ later, s.requests = .nothing :: later → step s = .next { s with requests := later }) ∧
    (∀ fam key later, nextReset s.requests = some (fam, key, later) →
      (∃ b after, s.requests = .push b :: after) ∨ (∃ after, s.requests = .close :: after) →
      step s = .next (opReset fam key { s with requests := later }))

/-- Invariant (d) of 10_state.md section 10. -/
def Obligations.OnlyPushAdvancesTheStream : Prop :=
  ∀ (s t : State) (b : Byte) (op : Op), perform b op s = .next t →
    t.position = s.position + (if op = .push then 1 else 0)

/-- LOST (10_state.md section 5). -/
def Obligations.LostFollowsItsRule : Prop :=
  ∀ (s t : State) (b : Byte) (op : Op), perform b op s = .next t →
    t.lost = match op with
      | .flush | .skip | .hslide | .slide => true
      | .emit => false
      | .push | .close | .detect | .check | .accept => s.lost

/-- Purity (42_validator.md section 8). -/
def Obligations.CheckReadsOnlyTheFrame : Prop :=
  ∀ s s' t t' : State, s.cfg = s'.cfg → s.buf.take s.n = s'.buf.take s'.n →
    opCheck s = .next t → opCheck s' = .next t' → t.calcReg = t'.calcReg ∧ t.rxReg = t'.rxReg

/-- Instances (60_exceptions.md section 7). -/
def Obligations.InstancesAreIsolated : Prop :=
  ∀ (k : Nat) (l l' : List State), stepInstance k l = .next l' →
    l'.length = l.length ∧ (∀ j, j ≠ k → l'[j]? = l[j]?) ∧
    (∀ s, l[k]? = some s → ∃ t, step s = .next t ∧ l'[k]? = some t)

/-- Codes (10_state.md section 4, 60_exceptions.md sections 1 and 2), status and ports. The views as functions of State
are the model's choice (log entry 14), and so is a sink that is ready when its list is used up (log entry 7). -/
def Obligations.StatusShowsTheRegisters : Prop :=
  ([St.searching, .candidate, .validating, .emitting, .streamClosed, .cfgFailed].map St.code = [0, 1, 2, 3, 4, 5]) ∧
  ([Reason.checksumMismatch, .noPreamble, .skipped, .headerMismatch].map Reason.code = [1, 2, 3, 4]) ∧
  (∀ (e : Event), (e.kind = 0 ↔ ∃ idx off payload chk, e = .frame idx off payload chk) ∧
    (e.kind = 1 ↔ ∃ reason off len computed transmitted, e = .syncLoss reason off len computed transmitted) ∧
    (e.kind = 2 ↔ e = .eos)) ∧
  (∀ s : State,
    (s.status.st = s.st.code ∧ s.status.base = s.base ∧ s.status.lost = s.lost ∧ s.status.calcReg = s.calcReg ∧
      s.status.rxReg = s.rxReg ∧ s.status.cfg = s.cfg) ∧
    (s.Inv → s.status.len.toNat = s.len) ∧
    (s.st ≠ .unreset →
      (s.inReady = true ↔ s.st = .searching ∧ s.len < s.n ∧ s.pending = none) ∧
      (s.cfgErr = true ↔ s.st = .cfgFailed) ∧ (s.closed = true ↔ s.st = .streamClosed)) ∧
    (s.outValid = true ↔ ∃ e, s.pending = some e ∧ s.outKind = some e.kind) ∧
    (s.pendingInv → s.delivered ++ s.pending.toList = s.evq) ∧
    (s.sink.head? ≠ some false → s.sinkMoment.delivered = s.evq) ∧
    (s.sink.head? = some false → s.sinkMoment.delivered = s.delivered))
end

