-- ==== Sys2Proof/Laws/Catalog.lean ====
section
/-! SUPPORT. The catalog, the lookup and the byte helpers. -/

namespace Sys2Proof

/-- `be16(h, l) = 256 h + l` (R8). -/
theorem be16_toNat (h l : Byte) : (be16 h l).toNat = 256 * h.toNat + l.toNat := by
  have hl := l.isLt
  have := (Nat.shiftLeft_add_eq_or_of_lt (i := 8) hl h.toNat).symm
  rw [Nat.shiftLeft_eq, Nat.mul_comm] at this
  exact (BitVec.toNat_append h l).trans (by rw [Nat.shiftLeft_eq, Nat.mul_comm]; exact this)

theorem hiByte_toNat (w : Half) : (hiByte w).toNat = w.toNat / 256 := by
  have := w.isLt
  simp [hiByte, Nat.shiftRight_eq_div_pow]
  omega

theorem loByte_toNat (w : Half) : (loByte w).toNat = w.toNat % 256 := by
  simp [loByte]

@[simp] theorem be16_hi_lo (w : Half) : be16 (hiByte w) (loByte w) = w := by
  apply BitVec.eq_of_toNat_eq
  rw [be16_toNat, hiByte_toNat, loByte_toNat]
  omega

@[simp] theorem hiByte_be16 (h l : Byte) : hiByte (be16 h l) = h := by
  apply BitVec.eq_of_toNat_eq
  have := l.isLt
  rw [hiByte_toNat, be16_toNat]
  omega

@[simp] theorem loByte_be16 (h l : Byte) : loByte (be16 h l) = l := by
  apply BitVec.eq_of_toNat_eq
  have := l.isLt
  rw [loByte_toNat, be16_toNat]
  omega

theorem FrameType.size_bounds (t : FrameType) : 25 ≤ t.size ∧ t.size ≤ 154 := by
  cases t <;> decide

@[simp] theorem FrameType.size_toNat (t : FrameType) : (BitVec.ofNat 8 t.size).toNat = t.size := by
  cases t <;> rfl

@[simp] theorem FrameType.instr_type (t : FrameType) (p : List Byte) (c : Half) : (t.instr p c).type = t := by
  cases t <;> rfl

@[simp] theorem FrameType.instr_payload (t : FrameType) (p : List Byte) (c : Half) : (t.instr p c).payload = p := by
  cases t <;> rfl

@[simp] theorem FrameType.instr_chk (t : FrameType) (p : List Byte) (c : Half) : (t.instr p c).chk = c := by
  cases t <;> rfl

@[simp] theorem Instr.instr_of_parts (i : Instr) : i.type.instr i.payload i.chk = i := by
  cases i <;> rfl

/-- RESET loads an entry of the family it was given. -/
theorem lookup_family {fam : Family} {key : Half} {t : FrameType} (h : lookup fam key = some t) : t.family = fam := by
  cases fam with
  | ref => simp [lookup] at h; subst h; rfl
  | sp =>
    simp only [lookup] at h
    have := List.find?_some h
    simp at this
    exact this.1

namespace Machine

theorem configured_iff (s : State) : s.configured = true ↔ ∃ t, s.configuredFor t = true := by
  unfold State.configured
  split
  · rename_i t ht
    constructor
    · exact fun h => ⟨t, h⟩
    · rintro ⟨u, hu⟩
      have hu' := hu
      simp [State.configuredFor, ht] at hu
      rw [hu.1]
      exact hu'
  · rename_i ht
    simp [State.configuredFor, ht]

/-- What the registers hold when a type is configured. -/
theorem configuredFor_iff (s : State) (t : FrameType) :
    s.configuredFor t = true ↔
      lookup s.cfg.fam s.cfg.key = some t ∧ s.cfg = t.definition s.cfg.key s.refSpanLo := by
  simp [State.configuredFor]

theorem n_of_configuredFor {s : State} {t : FrameType} (h : s.configuredFor t = true) : s.n = t.size := by
  rw [State.n, ((configuredFor_iff s t).1 h).2]
  exact t.size_toNat

/-- `findByte` answers the place of the first equal byte. -/
theorem findByte_some {v : Byte} {bs : List Byte} {k : Nat} (h : findByte v bs = some k) :
    bs[k]? = some v ∧ ∀ j < k, bs[j]? ≠ some v := by
  induction bs generalizing k with
  | nil => simp [findByte] at h
  | cons b bs ih =>
    unfold findByte at h
    split at h
    · rename_i hb
      simp at h
      subst h
      simp [hb]
    · rename_i hb
      cases hr : findByte v bs with
      | none => simp [hr] at h
      | some m =>
        simp [hr] at h
        subst h
        refine ⟨by simpa using (ih hr).1, fun j hj => ?_⟩
        cases j with
        | zero => simpa using hb
        | succ j => simpa using (ih hr).2 j (by omega)

/-- `findByte` answers none when no byte is equal. -/
theorem findByte_none {v : Byte} {bs : List Byte} : findByte v bs = none ↔ v ∉ bs := by
  induction bs with
  | nil => simp [findByte]
  | cons b bs ih =>
    by_cases hb : b = v
    · simp [findByte, hb]
    · simp [findByte, hb, ih, Ne.symm hb]

end Machine

end Sys2Proof
end

