-- ==== Sys2Proof/Laws/Checksum.lean ====
section
/-! SUPPORT. The checksum functions as plain folds. -/

namespace Sys2Proof.Machine

@[simp] theorem strictly_eq {w : Nat} {α : Type} (x : BitVec w) (f : BitVec w → α) : strictly x f = f x := by
  unfold strictly
  split
  · rename_i h
    rw [show x = 0 from BitVec.eq_of_toNat_eq (by simpa using h)]
  · rename_i m h
    rw [show BitVec.ofNat w (m + 1) = x from BitVec.eq_of_toNat_eq (by
      have := x.isLt
      rw [BitVec.toNat_ofNat, h, Nat.mod_eq_of_lt]
      omega)]

@[simp] theorem crcFrom_nil (c : Half) : crcFrom c [] = c := rfl

@[simp] theorem crcFrom_cons (c : Half) (d : Byte) (ds : List Byte) :
    crcFrom c (d :: ds) = crcFrom (crcByte c d) ds := by
  simp [crcFrom]

theorem crcFrom_append (c : Half) (s t : List Byte) : crcFrom c (s ++ t) = crcFrom (crcFrom c s) t := by
  induction s generalizing c with
  | nil => rfl
  | cons d ds ih => simp [ih]

theorem crcFrom_eq_foldl (c : Half) (s : List Byte) : crcFrom c s = s.foldl crcByte c := by
  induction s generalizing c with
  | nil => rfl
  | cons d ds ih => simp [ih]

@[simp] theorem sumFrom_nil (a b : Byte) : sumFrom a b [] = be16 a b := rfl

@[simp] theorem sumFrom_cons (a b d : Byte) (ds : List Byte) :
    sumFrom a b (d :: ds) = sumFrom (a + d) (b + (a + d)) ds := by
  simp [sumFrom]

end Sys2Proof.Machine
end

