-- ==== Sys2Proof/Laws/State.lean ====
section
/-! SUPPORT. One lemma per field for each named update of the state. -/

namespace Sys2Proof.Machine

@[simp] theorem State.append_refSpanLo (s : State) (b : Byte) : (s.append b).refSpanLo = s.refSpanLo := rfl
@[simp] theorem State.append_cfg (s : State) (b : Byte) : (s.append b).cfg = s.cfg := rfl
@[simp] theorem State.append_buf (s : State) (b : Byte) : (s.append b).buf = s.buf ++ [b] := rfl
@[simp] theorem State.append_st (s : State) (b : Byte) : (s.append b).st = s.st := rfl
@[simp] theorem State.append_base (s : State) (b : Byte) : (s.append b).base = s.base := rfl
@[simp] theorem State.append_lost (s : State) (b : Byte) : (s.append b).lost = s.lost := rfl
@[simp] theorem State.append_calcReg (s : State) (b : Byte) : (s.append b).calcReg = s.calcReg := rfl
@[simp] theorem State.append_rxReg (s : State) (b : Byte) : (s.append b).rxReg = s.rxReg := rfl
@[simp] theorem State.append_evq (s : State) (b : Byte) : (s.append b).evq = s.evq := rfl
@[simp] theorem State.append_pending (s : State) (b : Byte) : (s.append b).pending = s.pending := rfl
@[simp] theorem State.append_requests (s : State) (b : Byte) : (s.append b).requests = s.requests := rfl
@[simp] theorem State.append_sink (s : State) (b : Byte) : (s.append b).sink = s.sink := rfl
@[simp] theorem State.append_draws (s : State) (b : Byte) : (s.append b).draws = s.draws := rfl

@[simp] theorem State.dropFront_refSpanLo (s : State) (k : Nat) : (s.dropFront k).refSpanLo = s.refSpanLo := rfl
@[simp] theorem State.dropFront_cfg (s : State) (k : Nat) : (s.dropFront k).cfg = s.cfg := rfl
@[simp] theorem State.dropFront_buf (s : State) (k : Nat) : (s.dropFront k).buf = s.buf.drop k := rfl
@[simp] theorem State.dropFront_st (s : State) (k : Nat) : (s.dropFront k).st = s.st := rfl
@[simp] theorem State.dropFront_base (s : State) (k : Nat) : (s.dropFront k).base = s.base + BitVec.ofNat 64 k := rfl
@[simp] theorem State.dropFront_lost (s : State) (k : Nat) : (s.dropFront k).lost = s.lost := rfl
@[simp] theorem State.dropFront_calcReg (s : State) (k : Nat) : (s.dropFront k).calcReg = s.calcReg := rfl
@[simp] theorem State.dropFront_rxReg (s : State) (k : Nat) : (s.dropFront k).rxReg = s.rxReg := rfl
@[simp] theorem State.dropFront_evq (s : State) (k : Nat) : (s.dropFront k).evq = s.evq := rfl
@[simp] theorem State.dropFront_pending (s : State) (k : Nat) : (s.dropFront k).pending = s.pending := rfl
@[simp] theorem State.dropFront_requests (s : State) (k : Nat) : (s.dropFront k).requests = s.requests := rfl
@[simp] theorem State.dropFront_sink (s : State) (k : Nat) : (s.dropFront k).sink = s.sink := rfl
@[simp] theorem State.dropFront_draws (s : State) (k : Nat) : (s.dropFront k).draws = s.draws := rfl

@[simp] theorem State.emit_refSpanLo (s : State) (e : Event) : (s.emit e).refSpanLo = s.refSpanLo := rfl
@[simp] theorem State.emit_cfg (s : State) (e : Event) : (s.emit e).cfg = s.cfg := rfl
@[simp] theorem State.emit_buf (s : State) (e : Event) : (s.emit e).buf = s.buf := rfl
@[simp] theorem State.emit_st (s : State) (e : Event) : (s.emit e).st = s.st := rfl
@[simp] theorem State.emit_base (s : State) (e : Event) : (s.emit e).base = s.base := rfl
@[simp] theorem State.emit_lost (s : State) (e : Event) : (s.emit e).lost = s.lost := rfl
@[simp] theorem State.emit_calcReg (s : State) (e : Event) : (s.emit e).calcReg = s.calcReg := rfl
@[simp] theorem State.emit_rxReg (s : State) (e : Event) : (s.emit e).rxReg = s.rxReg := rfl
@[simp] theorem State.emit_evq (s : State) (e : Event) : (s.emit e).evq = s.evq ++ [e] := rfl
@[simp] theorem State.emit_pending (s : State) (e : Event) : (s.emit e).pending = some e := rfl
@[simp] theorem State.emit_requests (s : State) (e : Event) : (s.emit e).requests = s.requests := rfl
@[simp] theorem State.emit_sink (s : State) (e : Event) : (s.emit e).sink = s.sink := rfl
@[simp] theorem State.emit_draws (s : State) (e : Event) : (s.emit e).draws = s.draws := rfl

@[simp] theorem State.endEpisode_refSpanLo (s : State) (k : Nat) : (s.endEpisode k).refSpanLo = s.refSpanLo := rfl
@[simp] theorem State.endEpisode_cfg (s : State) (k : Nat) : (s.endEpisode k).cfg = s.cfg := rfl
@[simp] theorem State.endEpisode_buf (s : State) (k : Nat) : (s.endEpisode k).buf = s.buf.drop k := rfl
@[simp] theorem State.endEpisode_st (s : State) (k : Nat) : (s.endEpisode k).st = .searching := rfl
@[simp] theorem State.endEpisode_base (s : State) (k : Nat) : (s.endEpisode k).base = s.base + BitVec.ofNat 64 k := rfl
@[simp] theorem State.endEpisode_lost (s : State) (k : Nat) : (s.endEpisode k).lost = false := rfl
@[simp] theorem State.endEpisode_calcReg (s : State) (k : Nat) : (s.endEpisode k).calcReg = s.calcReg := rfl
@[simp] theorem State.endEpisode_rxReg (s : State) (k : Nat) : (s.endEpisode k).rxReg = s.rxReg := rfl
@[simp] theorem State.endEpisode_evq (s : State) (k : Nat) : (s.endEpisode k).evq = s.evq := rfl
@[simp] theorem State.endEpisode_pending (s : State) (k : Nat) : (s.endEpisode k).pending = s.pending := rfl
@[simp] theorem State.endEpisode_requests (s : State) (k : Nat) : (s.endEpisode k).requests = s.requests := rfl
@[simp] theorem State.endEpisode_sink (s : State) (k : Nat) : (s.endEpisode k).sink = s.sink := rfl
@[simp] theorem State.endEpisode_draws (s : State) (k : Nat) : (s.endEpisode k).draws = s.draws := rfl

@[simp] theorem State.cleared_refSpanLo (s : State) : (s.cleared).refSpanLo = s.refSpanLo := rfl
@[simp] theorem State.cleared_cfg (s : State) : (s.cleared).cfg = s.cfg := rfl
@[simp] theorem State.cleared_buf (s : State) : (s.cleared).buf = [] := rfl
@[simp] theorem State.cleared_st (s : State) : (s.cleared).st = s.st := rfl
@[simp] theorem State.cleared_base (s : State) : (s.cleared).base = 0 := rfl
@[simp] theorem State.cleared_lost (s : State) : (s.cleared).lost = false := rfl
@[simp] theorem State.cleared_calcReg (s : State) : (s.cleared).calcReg = 0 := rfl
@[simp] theorem State.cleared_rxReg (s : State) : (s.cleared).rxReg = 0 := rfl
@[simp] theorem State.cleared_evq (s : State) : (s.cleared).evq = [] := rfl
@[simp] theorem State.cleared_pending (s : State) : (s.cleared).pending = none := rfl
@[simp] theorem State.cleared_requests (s : State) : (s.cleared).requests = s.requests := rfl
@[simp] theorem State.cleared_sink (s : State) : (s.cleared).sink = s.sink := rfl
@[simp] theorem State.cleared_draws (s : State) : (s.cleared).draws = s.draws := rfl

@[simp] theorem State.raiseSyncLoss_refSpanLo (s : State) (r : Reason) (len : Nat) (c x : Half) :
    (s.raiseSyncLoss r len c x).refSpanLo = s.refSpanLo := by
  unfold State.raiseSyncLoss
  split <;> rfl
@[simp] theorem State.raiseSyncLoss_cfg (s : State) (r : Reason) (len : Nat) (c x : Half) :
    (s.raiseSyncLoss r len c x).cfg = s.cfg := by
  unfold State.raiseSyncLoss
  split <;> rfl
@[simp] theorem State.raiseSyncLoss_buf (s : State) (r : Reason) (len : Nat) (c x : Half) :
    (s.raiseSyncLoss r len c x).buf = s.buf := by
  unfold State.raiseSyncLoss
  split <;> rfl
@[simp] theorem State.raiseSyncLoss_st (s : State) (r : Reason) (len : Nat) (c x : Half) :
    (s.raiseSyncLoss r len c x).st = s.st := by
  unfold State.raiseSyncLoss
  split <;> rfl
@[simp] theorem State.raiseSyncLoss_base (s : State) (r : Reason) (len : Nat) (c x : Half) :
    (s.raiseSyncLoss r len c x).base = s.base := by
  unfold State.raiseSyncLoss
  split <;> rfl
@[simp] theorem State.raiseSyncLoss_lost (s : State) (r : Reason) (len : Nat) (c x : Half) :
    (s.raiseSyncLoss r len c x).lost = s.lost := by
  unfold State.raiseSyncLoss
  split <;> rfl
@[simp] theorem State.raiseSyncLoss_calcReg (s : State) (r : Reason) (len : Nat) (c x : Half) :
    (s.raiseSyncLoss r len c x).calcReg = s.calcReg := by
  unfold State.raiseSyncLoss
  split <;> rfl
@[simp] theorem State.raiseSyncLoss_rxReg (s : State) (r : Reason) (len : Nat) (c x : Half) :
    (s.raiseSyncLoss r len c x).rxReg = s.rxReg := by
  unfold State.raiseSyncLoss
  split <;> rfl
@[simp] theorem State.raiseSyncLoss_evq (s : State) (r : Reason) (len : Nat) (c x : Half) :
    (s.raiseSyncLoss r len c x).evq = if r.reported s.lost then s.evq ++ [(.syncLoss r s.base (BitVec.ofNat 9 len) c x)] else s.evq := by
  unfold State.raiseSyncLoss
  split <;> rfl
@[simp] theorem State.raiseSyncLoss_pending (s : State) (r : Reason) (len : Nat) (c x : Half) :
    (s.raiseSyncLoss r len c x).pending = if r.reported s.lost then some (.syncLoss r s.base (BitVec.ofNat 9 len) c x) else s.pending := by
  unfold State.raiseSyncLoss
  split <;> rfl
@[simp] theorem State.raiseSyncLoss_requests (s : State) (r : Reason) (len : Nat) (c x : Half) :
    (s.raiseSyncLoss r len c x).requests = s.requests := by
  unfold State.raiseSyncLoss
  split <;> rfl
@[simp] theorem State.raiseSyncLoss_sink (s : State) (r : Reason) (len : Nat) (c x : Half) :
    (s.raiseSyncLoss r len c x).sink = s.sink := by
  unfold State.raiseSyncLoss
  split <;> rfl
@[simp] theorem State.raiseSyncLoss_draws (s : State) (r : Reason) (len : Nat) (c x : Half) :
    (s.raiseSyncLoss r len c x).draws = s.draws := by
  unfold State.raiseSyncLoss
  split <;> rfl

@[simp] theorem State.takeSyncLoss_refSpanLo (s : State) (r : Reason) (len : Nat) (c x : Half) (k : Nat) :
    (s.takeSyncLoss r len c x k).refSpanLo = s.refSpanLo := by
  simp [State.takeSyncLoss]
@[simp] theorem State.takeSyncLoss_cfg (s : State) (r : Reason) (len : Nat) (c x : Half) (k : Nat) :
    (s.takeSyncLoss r len c x k).cfg = s.cfg := by
  simp [State.takeSyncLoss]
@[simp] theorem State.takeSyncLoss_buf (s : State) (r : Reason) (len : Nat) (c x : Half) (k : Nat) :
    (s.takeSyncLoss r len c x k).buf = s.buf.drop k := by
  simp [State.takeSyncLoss]
@[simp] theorem State.takeSyncLoss_st (s : State) (r : Reason) (len : Nat) (c x : Half) (k : Nat) :
    (s.takeSyncLoss r len c x k).st = .searching := rfl
@[simp] theorem State.takeSyncLoss_base (s : State) (r : Reason) (len : Nat) (c x : Half) (k : Nat) :
    (s.takeSyncLoss r len c x k).base = s.base + BitVec.ofNat 64 k := by
  simp [State.takeSyncLoss]
@[simp] theorem State.takeSyncLoss_lost (s : State) (r : Reason) (len : Nat) (c x : Half) (k : Nat) :
    (s.takeSyncLoss r len c x k).lost = true := rfl
@[simp] theorem State.takeSyncLoss_calcReg (s : State) (r : Reason) (len : Nat) (c x : Half) (k : Nat) :
    (s.takeSyncLoss r len c x k).calcReg = s.calcReg := by
  simp [State.takeSyncLoss]
@[simp] theorem State.takeSyncLoss_rxReg (s : State) (r : Reason) (len : Nat) (c x : Half) (k : Nat) :
    (s.takeSyncLoss r len c x k).rxReg = s.rxReg := by
  simp [State.takeSyncLoss]
@[simp] theorem State.takeSyncLoss_evq (s : State) (r : Reason) (len : Nat) (c x : Half) (k : Nat) :
    (s.takeSyncLoss r len c x k).evq = if r.reported s.lost then s.evq ++ [(.syncLoss r s.base (BitVec.ofNat 9 len) c x)] else s.evq := by
  simp [State.takeSyncLoss]
@[simp] theorem State.takeSyncLoss_pending (s : State) (r : Reason) (len : Nat) (c x : Half) (k : Nat) :
    (s.takeSyncLoss r len c x k).pending = if r.reported s.lost then some (.syncLoss r s.base (BitVec.ofNat 9 len) c x) else s.pending := by
  simp [State.takeSyncLoss]
@[simp] theorem State.takeSyncLoss_requests (s : State) (r : Reason) (len : Nat) (c x : Half) (k : Nat) :
    (s.takeSyncLoss r len c x k).requests = s.requests := by
  simp [State.takeSyncLoss]
@[simp] theorem State.takeSyncLoss_sink (s : State) (r : Reason) (len : Nat) (c x : Half) (k : Nat) :
    (s.takeSyncLoss r len c x k).sink = s.sink := by
  simp [State.takeSyncLoss]
@[simp] theorem State.takeSyncLoss_draws (s : State) (r : Reason) (len : Nat) (c x : Half) (k : Nat) :
    (s.takeSyncLoss r len c x k).draws = s.draws := by
  simp [State.takeSyncLoss]

@[simp] theorem State.sinkMoment_refSpanLo (s : State) : s.sinkMoment.refSpanLo = s.refSpanLo := by
  unfold State.sinkMoment
  split <;> rfl
@[simp] theorem State.sinkMoment_cfg (s : State) : s.sinkMoment.cfg = s.cfg := by
  unfold State.sinkMoment
  split <;> rfl
@[simp] theorem State.sinkMoment_buf (s : State) : s.sinkMoment.buf = s.buf := by
  unfold State.sinkMoment
  split <;> rfl
@[simp] theorem State.sinkMoment_st (s : State) : s.sinkMoment.st = s.st := by
  unfold State.sinkMoment
  split <;> rfl
@[simp] theorem State.sinkMoment_base (s : State) : s.sinkMoment.base = s.base := by
  unfold State.sinkMoment
  split <;> rfl
@[simp] theorem State.sinkMoment_lost (s : State) : s.sinkMoment.lost = s.lost := by
  unfold State.sinkMoment
  split <;> rfl
@[simp] theorem State.sinkMoment_calcReg (s : State) : s.sinkMoment.calcReg = s.calcReg := by
  unfold State.sinkMoment
  split <;> rfl
@[simp] theorem State.sinkMoment_rxReg (s : State) : s.sinkMoment.rxReg = s.rxReg := by
  unfold State.sinkMoment
  split <;> rfl
@[simp] theorem State.sinkMoment_evq (s : State) : s.sinkMoment.evq = s.evq := by
  unfold State.sinkMoment
  split <;> rfl
@[simp] theorem State.sinkMoment_requests (s : State) : s.sinkMoment.requests = s.requests := by
  unfold State.sinkMoment
  split <;> rfl
@[simp] theorem State.sinkMoment_draws (s : State) : s.sinkMoment.draws = s.draws := by
  unfold State.sinkMoment
  split <;> rfl

@[simp] theorem State.len_append (s : State) (b : Byte) : (s.append b).len = s.len + 1 := by
  simp [State.len]

@[simp] theorem State.len_dropFront (s : State) (k : Nat) : (s.dropFront k).len = s.len - k := by
  simp [State.len]

@[simp] theorem State.len_takeSyncLoss (s : State) (r : Reason) (len : Nat) (c x : Half) (k : Nat) :
    (s.takeSyncLoss r len c x k).len = s.len - k := by
  simp [State.len]

@[simp] theorem State.len_endEpisode (s : State) (k : Nat) : (s.endEpisode k).len = s.len - k := by
  simp [State.len]

@[simp] theorem State.len_emit (s : State) (e : Event) : (s.emit e).len = s.len := rfl

end Sys2Proof.Machine
end

