-- ==== Sys2Proof/Laws/Memory.lean ====
section
/-! SUPPORT. The Frame Buffer as memory: its cells are in canonical form in every state, and what Append and DropFront do to
the byte at an offset (20_memory.md R32, R33). -/

namespace Sys2Proof.Machine

theorem cellsFrom_wf (a : Nat) (bs : List Byte) : Memory.wf (cellsFrom a bs) = true := by
  induction bs generalizing a with
  | nil => rfl
  | cons b bs ih =>
    cases bs with
    | nil => rfl
    | cons c cs =>
      have := ih (a + 1)
      simpa [cellsFrom, Memory.wf] using this

/-- Every state's memory is in canonical form, so every operation keeps it. -/
theorem cells_wf (s : State) : Memory.wf s.cells = true := cellsFrom_wf 0 s.buf

theorem mem_cellsFrom (a i : Nat) (b : Byte) (bs : List Byte) : (a + i, b) ∈ cellsFrom a bs ↔ bs[i]? = some b := by
  induction bs generalizing a i with
  | nil => simp [cellsFrom]
  | cons c cs ih =>
    cases i with
    | zero =>
      have hlt : ∀ (bs : List Byte) (x : Nat), a < x → ∀ d, (a, d) ∉ cellsFrom x bs := by
        intro bs
        induction bs with
        | nil => simp [cellsFrom]
        | cons e es ih2 =>
          intro x hx d
          simp only [cellsFrom, List.mem_cons, Prod.mk.injEq, not_or, not_and]
          exact ⟨fun h => by omega, ih2 (x + 1) (by omega) d⟩
      simp [cellsFrom, hlt cs (a + 1) (by omega) b, eq_comm]
    | succ i =>
      have := ih (a + 1) i
      simp only [cellsFrom, List.mem_cons, Prod.mk.injEq, List.getElem?_cons_succ]
      rw [← this, show a + 1 + i = a + (i + 1) by omega]
      constructor
      · rintro (⟨h, -⟩ | h)
        · omega
        · exact h
      · exact Or.inr

/-- A cell is listed exactly where the buffer holds that byte. -/
theorem mem_cells (s : State) (i : Nat) (b : Byte) : (i, b) ∈ s.cells ↔ s.bufByte i = some b := by
  simpa [State.cells, State.bufByte] using mem_cellsFrom 0 i b s.buf

/-- Append never changes an existing byte (R32). -/
theorem bufByte_append (s : State) (b : Byte) (i : Nat) (h : i < s.len) : (s.append b).bufByte i = s.bufByte i := by
  simp [State.bufByte, State.len] at *
  exact List.getElem?_append_left h

/-- The appended byte stands at offset LEN (R32). -/
theorem bufByte_append_len (s : State) (b : Byte) : (s.append b).bufByte s.len = some b := by
  simp [State.bufByte, State.len]

/-- After DropFront(k) offset i holds what offset i + k held (R33). -/
theorem bufByte_dropFront (s : State) (k i : Nat) : (s.dropFront k).bufByte i = s.bufByte (k + i) := by
  simp [State.bufByte]

end Sys2Proof.Machine
end

