-- ==== Sys2Proof/Laws/Ops.lean ====
section
/-! SUPPORT. What each shared operation can do: if it answers a next state, the guard held, the state was one the operation
is defined for, and the next state is the one named. -/

namespace Sys2Proof.Machine

@[simp] theorem andThen_next (s : State) (f : State → Result) : andThen (.next s) f = f s := rfl

@[simp] theorem andThen_fault (r : Fault) (f : State → Result) : andThen (.fault r) f = .fault r := rfl

@[simp] theorem andThen_refused (r : Refusal) (f : State → Result) : andThen (.refused r) f = .refused r := rfl

theorem andThen_eq_next {o : Result} {f : State → Result} {t : State} (h : andThen o f = .next t) :
    ∃ s, o = .next s ∧ f s = .next t := by
  cases o with
  | next s => exact ⟨s, rfl, h⟩
  | fault r => simp at h
  | refused r => simp at h

theorem guarded_eq_next {s t : State} {op : Op} {g : Bool} {r : Result} (h : s.guarded op g r = .next t) :
    g = true ∧ s.configured = true ∧ s.len ≤ s.cap ∧ r = .next t := by
  unfold State.guarded at h
  split at h
  · split at h
    · split at h
      · exact ⟨by assumption, by assumption, by assumption, h⟩
      · simp at h
    · simp at h
  · simp at h

/-- With its guard true and the state in the specification, a guarded operation is its result. -/
theorem guarded_of {s : State} {op : Op} {g : Bool} {r : Result} (hg : g = true) (hc : s.configured = true)
    (hl : s.len ≤ s.cap) : s.guarded op g r = r := by
  simp [State.guarded, hg, hc, hl]

theorem guarded_of_not {s : State} {op : Op} {g : Bool} {r : Result} (hg : g = false) :
    s.guarded op g r = .refused (.noStep op) := by
  simp [State.guarded, hg]

theorem opDetect_eq_next {s t : State} (h : opDetect s = .next t) :
    s.fullSearch = true ∧ s.hdrMatch = true ∧ s.configured = true ∧ s.len ≤ s.cap ∧ t = { s with st := .candidate } := by
  obtain ⟨hg, hc, hl, hr⟩ := guarded_eq_next h
  simp at hg hr
  exact ⟨hg.1, hg.2, hc, hl, hr.symm⟩

theorem opFlush_eq_next {s t : State} (h : opFlush s = .next t) :
    s.fullSearch = true ∧ s.hdrMatch = false ∧ s.findPreamble = none ∧ s.configured = true ∧ s.len ≤ s.cap ∧
      t = s.takeSyncLoss .noPreamble s.len 0 0 s.len := by
  obtain ⟨hg, hc, hl, hr⟩ := guarded_eq_next h
  simp at hg hr
  exact ⟨hg.1.1, hg.1.2, hg.2, hc, hl, hr.symm⟩

theorem opSkip_eq_next {s t : State} (h : opSkip s = .next t) :
    ∃ k, s.findPreamble = some (k + 1) ∧ s.fullSearch = true ∧ s.hdrMatch = false ∧ s.configured = true ∧
      s.len ≤ s.cap ∧ t = s.takeSyncLoss .skipped (k + 1) 0 0 (k + 1) := by
  unfold opSkip at h
  split at h
  · rename_i k hk
    obtain ⟨hg, hc, hl, hr⟩ := guarded_eq_next h
    simp at hg hr
    exact ⟨k, hk, hg.1, hg.2, hc, hl, hr.symm⟩
  · simp at h

theorem opHslide_eq_next {s t : State} (h : opHslide s = .next t) :
    s.fullSearch = true ∧ s.hdrMatch = false ∧ s.findPreamble = some 0 ∧ s.configured = true ∧ s.len ≤ s.cap ∧
      t = s.takeSyncLoss .headerMismatch 1 0 0 1 := by
  obtain ⟨hg, hc, hl, hr⟩ := guarded_eq_next h
  simp at hg hr
  exact ⟨hg.1.1, hg.1.2, hg.2, hc, hl, hr.symm⟩

theorem opCheck_eq_next {s t : State} (h : opCheck s = .next t) :
    s.st = .candidate ∧ s.configured = true ∧ s.len ≤ s.cap ∧ ∃ span rx, s.span = some span ∧
      s.checksumField = some rx ∧
      t = { s with calcReg := familyChecksum s.cfg.fam span, rxReg := rx, st := .validating } := by
  obtain ⟨hg, hc, hl, hr⟩ := guarded_eq_next h
  refine ⟨by simpa using hg, hc, hl, ?_⟩
  split at hr
  · rename_i span rx h1 h2
    exact ⟨span, rx, h1, h2, by simpa using hr.symm⟩
  · simp at hr

theorem opAccept_eq_next {s t : State} (h : opAccept s = .next t) :
    s.st = .validating ∧ s.calcReg = s.rxReg ∧ s.configured = true ∧ s.len ≤ s.cap ∧
      t = { s with st := .emitting } := by
  obtain ⟨hg, hc, hl, hr⟩ := guarded_eq_next h
  simp [State.checksumEqual] at hg hr
  exact ⟨hg.1, hg.2, hc, hl, hr.symm⟩

theorem opSlide_eq_next {s t : State} (h : opSlide s = .next t) :
    s.st = .validating ∧ s.calcReg ≠ s.rxReg ∧ s.configured = true ∧ s.len ≤ s.cap ∧ 1 ≤ s.len ∧
      t = s.takeSyncLoss .checksumMismatch s.n s.calcReg s.rxReg 1 := by
  obtain ⟨hg, hc, hl, hr⟩ := guarded_eq_next h
  simp [State.checksumEqual] at hg
  split at hr
  · simp at hr
    exact ⟨hg.1, hg.2, hc, hl, by assumption, hr.symm⟩
  · simp at hr

theorem opEmit_eq_next {s t : State} (h : opEmit s = .next t) :
    s.st = .emitting ∧ s.configured = true ∧ s.len ≤ s.cap ∧ s.n ≤ s.len ∧ ∃ payload, s.payload = some payload ∧
      t = (s.emit (.frame s.cfg.idx s.base payload s.rxReg)).endEpisode s.n := by
  obtain ⟨hg, hc, hl, hr⟩ := guarded_eq_next h
  refine ⟨by simpa using hg, hc, hl, ?_⟩
  split at hr
  · rename_i payload hp
    split at hr
    · simp at hr
      exact ⟨by assumption, payload, hp, hr.symm⟩
    · simp at hr
  · simp at hr

theorem opPush_eq_next {b : Byte} {s t : State} (h : opPush b s = .next t) :
    s.idle = true ∧ s.configured = true ∧ s.len ≤ s.cap ∧ t = s.append b := by
  obtain ⟨hg, hc, hl, hr⟩ := guarded_eq_next h
  simp at hr
  exact ⟨hg, hc, hl, hr.symm⟩

theorem opClose_eq_next {s t : State} (h : opClose s = .next t) :
    s.idle = true ∧ s.configured = true ∧ s.len ≤ s.cap ∧
      t = { ((s.emit .eos).dropFront s.len) with st := .streamClosed } := by
  obtain ⟨hg, hc, hl, hr⟩ := guarded_eq_next h
  simp at hr
  exact ⟨hg, hc, hl, hr.symm⟩

/-- Every internal step is one of the eight operations. -/
theorem internal_eq_next {s t : State} (h : internal s = .next t) :
    opDetect s = .next t ∨ opFlush s = .next t ∨ opSkip s = .next t ∨ opHslide s = .next t ∨ opCheck s = .next t ∨
      opAccept s = .next t ∨ opSlide s = .next t ∨ opEmit s = .next t := by
  unfold internal synchronize discard judge at h
  repeat' split at h
  all_goals first | (simp at h) | simp [h]

end Sys2Proof.Machine
end

