-- ==== Sys2Proof/Laws/PerInstr.lean ====
section
/-! SUPPORT. Statements about every instruction as syntax, one lemma per constructor. Layout: the encoding of a well-formed
frame has the N bytes of its type and begins with its header (30_encoding.md R45, R46). -/

namespace Sys2Proof.Laws.Layout

/-- The size and the first four bytes of an instruction's encoding. -/
def Statement (i : Instr) : Prop :=
  i.wf = true → (encode i).length = i.type.size ∧ (encode i).take 4 = i.type.header

/-- What `Statement` says, over the shared encoder of a catalog entry. -/
theorem of_entry (t : FrameType) (payload : List Byte) (chk : Half) (h : payload.length = t.payloadLen)
    (ht : 6 ≤ t.size) :
    (encodeFrame t payload chk).length = t.size ∧ (encodeFrame t payload chk).take 4 = t.header := by
  simp [encodeFrame, FrameType.header, FrameType.payloadLen, h] at *
  omega

theorem frameA1 (payload : List Byte) (chk : Half) : Statement (.frameA1 payload chk) := fun h =>
  of_entry .A1 payload chk (by simpa [Instr.wf, Instr.type, Instr.payload] using h) (by decide)

theorem frameA2 (payload : List Byte) (chk : Half) : Statement (.frameA2 payload chk) := fun h =>
  of_entry .A2 payload chk (by simpa [Instr.wf, Instr.type, Instr.payload] using h) (by decide)

theorem frameS0 (payload : List Byte) (chk : Half) : Statement (.frameS0 payload chk) := fun h =>
  of_entry .S0 payload chk (by simpa [Instr.wf, Instr.type, Instr.payload] using h) (by decide)

theorem frameS1 (payload : List Byte) (chk : Half) : Statement (.frameS1 payload chk) := fun h =>
  of_entry .S1 payload chk (by simpa [Instr.wf, Instr.type, Instr.payload] using h) (by decide)

theorem frameSH (payload : List Byte) (chk : Half) : Statement (.frameSH payload chk) := fun h =>
  of_entry .SH payload chk (by simpa [Instr.wf, Instr.type, Instr.payload] using h) (by decide)

theorem frameE3 (payload : List Byte) (chk : Half) : Statement (.frameE3 payload chk) := fun h =>
  of_entry .E3 payload chk (by simpa [Instr.wf, Instr.type, Instr.payload] using h) (by decide)

theorem frameSA (payload : List Byte) (chk : Half) : Statement (.frameSA payload chk) := fun h =>
  of_entry .SA payload chk (by simpa [Instr.wf, Instr.type, Instr.payload] using h) (by decide)

theorem frameMG (payload : List Byte) (chk : Half) : Statement (.frameMG payload chk) := fun h =>
  of_entry .MG payload chk (by simpa [Instr.wf, Instr.type, Instr.payload] using h) (by decide)

theorem framez1 (payload : List Byte) (chk : Half) : Statement (.framez1 payload chk) := fun h =>
  of_entry .z1 payload chk (by simpa [Instr.wf, Instr.type, Instr.payload] using h) (by decide)

theorem frames1 (payload : List Byte) (chk : Half) : Statement (.frames1 payload chk) := fun h =>
  of_entry .s1 payload chk (by simpa [Instr.wf, Instr.type, Instr.payload] using h) (by decide)

theorem framea2 (payload : List Byte) (chk : Half) : Statement (.framea2 payload chk) := fun h =>
  of_entry .a2 payload chk (by simpa [Instr.wf, Instr.type, Instr.payload] using h) (by decide)

theorem framee1 (payload : List Byte) (chk : Half) : Statement (.framee1 payload chk) := fun h =>
  of_entry .e1 payload chk (by simpa [Instr.wf, Instr.type, Instr.payload] using h) (by decide)

theorem framee2 (payload : List Byte) (chk : Half) : Statement (.framee2 payload chk) := fun h =>
  of_entry .e2 payload chk (by simpa [Instr.wf, Instr.type, Instr.payload] using h) (by decide)

theorem frameid (payload : List Byte) (chk : Half) : Statement (.frameid payload chk) := fun h =>
  of_entry .id payload chk (by simpa [Instr.wf, Instr.type, Instr.payload] using h) (by decide)

theorem framesd (payload : List Byte) (chk : Half) : Statement (.framesd payload chk) := fun h =>
  of_entry .sd payload chk (by simpa [Instr.wf, Instr.type, Instr.payload] using h) (by decide)

theorem frameFM (payload : List Byte) (chk : Half) : Statement (.frameFM payload chk) := fun h =>
  of_entry .FM payload chk (by simpa [Instr.wf, Instr.type, Instr.payload] using h) (by decide)

theorem frameREF (payload : List Byte) (chk : Half) : Statement (.frameREF payload chk) := fun h =>
  of_entry .REF payload chk (by simpa [Instr.wf, Instr.type, Instr.payload] using h) (by decide)

end Sys2Proof.Laws.Layout
end

