-- ==== Sys2Proof/Laws/Step.lean ====
section
/-! SUPPORT. What one operation of the schedule, one frame and one step can do, and the induction over them: a property that
RESET, the sink, the requests and the internal operations keep is kept by every step. -/

namespace Sys2Proof.Machine

/-- Every meaning is the rule of its catalog entry. -/
theorem exec_eq (i : Instr) (s : State) : exec i s = processFrame i.type i.payload i.chk s := by
  cases i <;> rfl

/-- What `operate` can do when it answers a next state. -/
theorem operate_eq_next {s t : State} (h : operate s = .next t) :
    (∃ fam key later, s.requests = .reset fam key :: later ∧ t = opReset fam key { s with requests := later }) ∨
    (s.resetPresented = false ∧ (∃ e, s.pending = some e) ∧ t = s.sinkMoment) ∨
    (s.resetPresented = false ∧ s.pending = none ∧ s.busy = true ∧ internal s = .next t) ∨
    (s.resetPresented = false ∧ s.pending = none ∧ s.idle = true ∧ takeRequest s = .next t) ∨
    (s.resetPresented = false ∧ s.pending = none ∧ s.st.running = false ∧ onlyReset s = .next t) := by
  unfold operate at h
  split at h
  · rename_i fam key later hr
    exact .inl ⟨fam, key, later, hr, by simpa using h.symm⟩
  · rename_i hr
    have hp : s.resetPresented = false := by
      unfold State.resetPresented
      split
      · rename_i fam key later hr'
        exact absurd hr' (hr fam key later)
      · rfl
    split at h
    · rename_i e he
      exact .inr (.inl ⟨hp, ⟨e, he⟩, by simpa using h.symm⟩)
    · rename_i he
      split at h
      · rename_i hrun
        split at h
        · rename_i hi
          exact .inr (.inr (.inr (.inl ⟨hp, he, hi, h⟩)))
        · rename_i hi
          exact .inr (.inr (.inl ⟨hp, he, by simp [State.busy, hrun, hi], h⟩))
      · rename_i hrun
        exact .inr (.inr (.inr (.inr ⟨hp, he, by simpa using hrun, h⟩)))

/-- The operations of a frame's rule are internal operations of the states they are performed in. -/
theorem frameRule_eq_next {s t : State} (h : frameRule s = .next t) :
    internal s = .next t ∨ ∃ s1, internal s = .next s1 ∧ (internal s1 = .next t ∨ ∃ s2, internal s1 = .next s2 ∧
      (internal s2 = .next t ∨ ∃ s3, internal s2 = .next s3 ∧ internal s3 = .next t)) := by
  have verdict : ∀ {u : State}, u.st = .validating → finishJudged u = .next t →
      internal u = .next t ∨ ∃ s3, internal u = .next s3 ∧ internal s3 = .next t := by
    intro u hu hj
    unfold finishJudged at hj
    split at hj
    · rename_i hc
      obtain ⟨v, hv, hvt⟩ := andThen_eq_next hj
      refine .inr ⟨v, by simp [internal, hu, judge, hc, hv], ?_⟩
      obtain ⟨-, -, -, -, rfl⟩ := opAccept_eq_next hv
      simpa [internal] using hvt
    · rename_i hc
      exact .inl (by simp [internal, hu, judge, hc, hj])
  unfold frameRule at h
  split at h
  · rename_i hst
    obtain ⟨s1, h1, h⟩ := andThen_eq_next h
    obtain ⟨s2, h2, h⟩ := andThen_eq_next h
    have hd := opDetect_eq_next h1
    have hn : s.n ≤ s.len := by simpa [State.fullSearch, hst] using hd.1
    have hs1 : s1.st = .candidate := by rw [hd.2.2.2.2]
    have hs2 : s2.st = .validating := by
      obtain ⟨-, -, -, span, rx, -, -, rfl⟩ := opCheck_eq_next h2
      rfl
    refine .inr ⟨s1, by simp [internal, hst, hn, synchronize, hd.2.1, h1], .inr ⟨s2, ?_, verdict hs2 h⟩⟩
    simp [internal, hs1, h2]
  · rename_i hst
    obtain ⟨s2, h2, h⟩ := andThen_eq_next h
    have hs2 : s2.st = .validating := by
      obtain ⟨-, -, -, span, rx, -, -, rfl⟩ := opCheck_eq_next h2
      rfl
    refine .inr ⟨s2, by simp [internal, hst, h2], ?_⟩
    rcases verdict hs2 h with h | ⟨s3, h3, h⟩
    · exact .inl h
    · exact .inr ⟨s3, h3, .inl h⟩
  · rename_i hst
    rcases verdict hst h with h | ⟨s3, h3, h⟩
    · exact .inl h
    · exact .inr ⟨s3, h3, .inl h⟩
  · rename_i hst
    exact .inl (by simp [internal, hst, h])
  all_goals simp at h

/-- What an instruction can do when it answers a next state: wait for the sink, or one to four internal operations. -/
theorem exec_eq_next {i : Instr} {s t : State} (h : exec i s = .next t) :
    s.atHead i.type i.payload i.chk = true ∧
      (((∃ e, s.pending = some e) ∧ t = s.sinkMoment) ∨
       (s.pending = none ∧ (s.configuredFor i.type = true ∧ frameRule s = .next t ∨ internal s = .next t))) := by
  rw [exec_eq] at h
  unfold processFrame at h
  split at h
  · rename_i ha
    refine ⟨ha, ?_⟩
    split at h
    · rename_i e he
      exact .inl ⟨⟨e, he⟩, by simpa using h.symm⟩
    · rename_i he
      split at h
      · rename_i hc
        exact .inr ⟨he, .inl ⟨hc, h⟩⟩
      · exact .inr ⟨he, .inr h⟩
  · simp at h

/-- What internal operations keep, every instruction keeps that the sink's moment keeps too. -/
theorem exec_keeps {P : State → Prop} (hsink : ∀ s, P s → P s.sinkMoment)
    (hint : ∀ s t, P s → internal s = .next t → P t) {i : Instr} {s t : State} (hs : P s) (h : exec i s = .next t) :
    P t := by
  rcases (exec_eq_next h).2 with ⟨-, rfl⟩ | ⟨-, ⟨-, h⟩ | h⟩
  · exact hsink s hs
  · rcases frameRule_eq_next h with h | ⟨s1, h1, h | ⟨s2, h2, h | ⟨s3, h3, h⟩⟩⟩
    · exact hint s t hs h
    · exact hint _ _ (hint _ _ hs h1) h
    · exact hint _ _ (hint _ _ (hint _ _ hs h1) h2) h
    · exact hint _ _ (hint _ _ (hint _ _ (hint _ _ hs h1) h2) h3) h
  · exact hint s t hs h

/-- A property that the sink's moment, the internal operations and the operations without a frame keep is kept by a step. -/
theorem step_keeps {P : State → Prop} (hsink : ∀ s, P s → P s.sinkMoment)
    (hint : ∀ s t, P s → internal s = .next t → P t) (hop : ∀ s t, P s → operate s = .next t → P t)
    {s t : State} (hs : P s) (h : step s = .next t) : P t := by
  unfold step at h
  split at h
  · exact exec_keeps hsink hint hs h
  · exact hop s t hs h

end Sys2Proof.Machine
end

