-- ==== Sys2Proof/Tests/Slice0.lean ====
section
/-! SUPPORT. Tests against the values printed in 95_test_vectors.md, 30_encoding.md and 42_validator.md, and for every
obligation that has hypotheses a witness: concrete states and operands that meet them together. -/

namespace Sys2Proof.Tests

open Sys2Proof Sys2Proof.Machine

set_option Elab.async false

/-- The next state an outcome holds, comparable by decide. -/
def nextOf (r : Result) : Option State :=
  match r with
  | .next s => some s
  | .fault _ | .refused _ => none

theorem next_of {r : Result} {t : State} (h : nextOf r = some t) : r = .next t := by
  cases r <;> simp_all [nextOf]

theorem exists_next {r : Result} (h : (nextOf r).isSome = true) : ∃ t, r = .next t := by
  cases r <;> simp_all [nextOf]

/-- The invariant as a Bool, so that a witness can name it for several states. -/
def invHolds (s : State) : Bool := decide s.Inv

theorem inv_of_invHolds {s : State} (h : invHolds s = true) : s.Inv := of_decide_eq_true h

/-- What the decoder reads, comparable by decide. -/
def decoded (bs : List Byte) : Option (Instr × List Byte) :=
  match decode bs with
  | .ok r => some r
  | .error _ => none

/-- The payload 01 02 03 ... of 95_test_vectors.md section 2.3. -/
def counting (n : Nat) : List Byte := (List.range n).map fun j => BitVec.ofNat 8 (j + 1)

/-- Type SA configured, as in 95_test_vectors.md section 2.4. -/
def sa (st : St) (buf : List Byte) : State :=
  { State.reset with cfg := ⟨.sp, 0x5341, 6, 25, 0x55, 0x55, 0x53, 0x41, 2, 19⟩, st := st, buf := buf }

/-- REF configured. -/
def ref (st : St) (buf : List Byte) : State :=
  { State.reset with cfg := ⟨.ref, 0, 16, 127, 0xAF, 0x20, 0x05, 0x0D, 4, 121⟩, st := st, buf := buf }

/-- The payload 10 11 ... 22 of the frame g. -/
def gPayload : List Byte := (List.range 19).map fun j => BitVec.ofNat 8 (j + 0x10)

/-- The frame g of 95_test_vectors.md section 2.4. -/
def g : List Byte :=
  [0x55, 0x55, 0x53, 0x41, 0x10, 0x11, 0x12, 0x13, 0x14, 0x15, 0x16, 0x17, 0x18, 0x19, 0x1A, 0x1B, 0x1C, 0x1D, 0x1E,
   0x1F, 0x20, 0x21, 0x22, 0xD3, 0xDD]

/-- g with byte 10 = 12 instead of 16. -/
def gBad : List Byte := g.set 10 0x12

/-- The 25 bytes 01 02 ... 19, none of them 55 (vector G2). -/
def quiet : List Byte := counting 25

/-- The registers a row of 95_test_vectors.md section 2.4 lists, with BUF and EVQ. -/
structure Row where
  st : St
  buf : List Byte
  base : Offset
  lost : Bool
  calcReg : Half
  rxReg : Half
  evq : List Event
deriving DecidableEq, Repr

/-- The row a state shows. -/
def rowOf (s : State) : Row := ⟨s.st, s.buf, s.base, s.lost, s.calcReg, s.rxReg, s.evq⟩

/-- The row after an outcome. -/
def rowAfter (r : Result) : Option Row := (nextOf r).map rowOf

/-! ## WellFormed: a payload of the wrong length is no frame -/

theorem test_wf_refuses_short_payload : (Instr.frameSA (counting 18) 0).wf = false := by decide

theorem test_wf_refuses_long_payload : (Instr.frameREF (counting 122) 0).wf = false := by decide +kernel

theorem test_wf_admits_whole_payload : (Instr.frameSA (counting 19) 0).wf = true := by decide

/-! ## Decoding: the header bytes of 30_encoding.md section 3, written out, then payload, checksum and one byte more; and
one step on that frame under its configuration (95_test_vectors.md section 2.3, column C) -/

/-- A short-preamble frame at the head of the buffer under the given registers. -/
def standing (key : Half) (idx : BitVec 5) (n p : BitVec 8) (m0 m1 : Byte) (buf : List Byte) : State :=
  { State.reset with cfg := ⟨.sp, key, idx, n, 0x55, 0x55, m0, m1, 2, p⟩, st := .searching, buf := buf }

theorem test_decode_A1 : decoded ([0x55, 0x55, 0x41, 0x31] ++ counting 33 ++ [0xAB, 0x7A] ++ [0x99]) =
    some (.frameA1 (counting 33) 0xAB7A, [0x99]) := by decide +kernel

theorem test_step_A1 :
    rowAfter (step (standing 0x4131 0 39 33 0x41 0x31
      ([0x55, 0x55, 0x41, 0x31] ++ counting 33 ++ [0xAB, 0x7A]))) =
    some ⟨.searching, [], 39, false, 0xAB7A, 0xAB7A, [.frame 0 0 (counting 33) 0xAB7A]⟩ := by decide +kernel

theorem test_decode_A2 : decoded ([0x55, 0x55, 0x41, 0x32] ++ counting 31 ++ [0x4F, 0x03] ++ [0x99]) =
    some (.frameA2 (counting 31) 0x4F03, [0x99]) := by decide +kernel

theorem test_step_A2 :
    rowAfter (step (standing 0x4132 1 37 31 0x41 0x32
      ([0x55, 0x55, 0x41, 0x32] ++ counting 31 ++ [0x4F, 0x03]))) =
    some ⟨.searching, [], 37, false, 0x4F03, 0x4F03, [.frame 1 0 (counting 31) 0x4F03]⟩ := by decide +kernel

theorem test_decode_S0 : decoded ([0x55, 0x55, 0x53, 0x30] ++ counting 31 ++ [0xAA, 0xDE] ++ [0x99]) =
    some (.frameS0 (counting 31) 0xAADE, [0x99]) := by decide +kernel

theorem test_step_S0 :
    rowAfter (step (standing 0x5330 2 37 31 0x53 0x30
      ([0x55, 0x55, 0x53, 0x30] ++ counting 31 ++ [0xAA, 0xDE]))) =
    some ⟨.searching, [], 37, false, 0xAADE, 0xAADE, [.frame 2 0 (counting 31) 0xAADE]⟩ := by decide +kernel

theorem test_decode_S1 : decoded ([0x55, 0x55, 0x53, 0x31] ++ counting 25 ++ [0x04, 0x58] ++ [0x99]) =
    some (.frameS1 (counting 25) 0x0458, [0x99]) := by decide +kernel

theorem test_step_S1 :
    rowAfter (step (standing 0x5331 3 31 25 0x53 0x31
      ([0x55, 0x55, 0x53, 0x31] ++ counting 25 ++ [0x04, 0x58]))) =
    some ⟨.searching, [], 31, false, 0x0458, 0x0458, [.frame 3 0 (counting 25) 0x0458]⟩ := by decide +kernel

theorem test_decode_SH : decoded ([0x55, 0x55, 0x53, 0x48] ++ counting 31 ++ [0x3E, 0xB5] ++ [0x99]) =
    some (.frameSH (counting 31) 0x3EB5, [0x99]) := by decide +kernel

theorem test_step_SH :
    rowAfter (step (standing 0x5348 4 37 31 0x53 0x48
      ([0x55, 0x55, 0x53, 0x48] ++ counting 31 ++ [0x3E, 0xB5]))) =
    some ⟨.searching, [], 37, false, 0x3EB5, 0x3EB5, [.frame 4 0 (counting 31) 0x3EB5]⟩ := by decide +kernel

theorem test_decode_E3 : decoded ([0x55, 0x55, 0x45, 0x33] ++ counting 33 ++ [0x0F, 0xE4] ++ [0x99]) =
    some (.frameE3 (counting 33) 0x0FE4, [0x99]) := by decide +kernel

theorem test_step_E3 :
    rowAfter (step (standing 0x4533 5 39 33 0x45 0x33
      ([0x55, 0x55, 0x45, 0x33] ++ counting 33 ++ [0x0F, 0xE4]))) =
    some ⟨.searching, [], 39, false, 0x0FE4, 0x0FE4, [.frame 5 0 (counting 33) 0x0FE4]⟩ := by decide +kernel

theorem test_decode_SA : decoded ([0x55, 0x55, 0x53, 0x41] ++ counting 19 ++ [0x19, 0xC4] ++ [0x99]) =
    some (.frameSA (counting 19) 0x19C4, [0x99]) := by decide +kernel

theorem test_step_SA :
    rowAfter (step (standing 0x5341 6 25 19 0x53 0x41
      ([0x55, 0x55, 0x53, 0x41] ++ counting 19 ++ [0x19, 0xC4]))) =
    some ⟨.searching, [], 25, false, 0x19C4, 0x19C4, [.frame 6 0 (counting 19) 0x19C4]⟩ := by decide +kernel

theorem test_decode_MG : decoded ([0x55, 0x55, 0x4D, 0x47] ++ counting 29 ++ [0xCD, 0xB2] ++ [0x99]) =
    some (.frameMG (counting 29) 0xCDB2, [0x99]) := by decide +kernel

theorem test_step_MG :
    rowAfter (step (standing 0x4D47 7 35 29 0x4D 0x47
      ([0x55, 0x55, 0x4D, 0x47] ++ counting 29 ++ [0xCD, 0xB2]))) =
    some ⟨.searching, [], 35, false, 0xCDB2, 0xCDB2, [.frame 7 0 (counting 29) 0xCDB2]⟩ := by decide +kernel

theorem test_decode_z1 : decoded ([0x55, 0x55, 0x7A, 0x31] ++ counting 41 ++ [0xC7, 0x3A] ++ [0x99]) =
    some (.framez1 (counting 41) 0xC73A, [0x99]) := by decide +kernel

theorem test_step_z1 :
    rowAfter (step (standing 0x7A31 8 47 41 0x7A 0x31
      ([0x55, 0x55, 0x7A, 0x31] ++ counting 41 ++ [0xC7, 0x3A]))) =
    some ⟨.searching, [], 47, false, 0xC73A, 0xC73A, [.frame 8 0 (counting 41) 0xC73A]⟩ := by decide +kernel

theorem test_decode_s1 : decoded ([0x55, 0x55, 0x73, 0x31] ++ counting 53 ++ [0xC0, 0xBA] ++ [0x99]) =
    some (.frames1 (counting 53) 0xC0BA, [0x99]) := by decide +kernel

theorem test_step_s1 :
    rowAfter (step (standing 0x7331 9 59 53 0x73 0x31
      ([0x55, 0x55, 0x73, 0x31] ++ counting 53 ++ [0xC0, 0xBA]))) =
    some ⟨.searching, [], 59, false, 0xC0BA, 0xC0BA, [.frame 9 0 (counting 53) 0xC0BA]⟩ := by decide +kernel

theorem test_decode_a2 : decoded ([0x55, 0x55, 0x61, 0x32] ++ counting 49 ++ [0x5C, 0x07] ++ [0x99]) =
    some (.framea2 (counting 49) 0x5C07, [0x99]) := by decide +kernel

theorem test_step_a2 :
    rowAfter (step (standing 0x6132 10 55 49 0x61 0x32
      ([0x55, 0x55, 0x61, 0x32] ++ counting 49 ++ [0x5C, 0x07]))) =
    some ⟨.searching, [], 55, false, 0x5C07, 0x5C07, [.frame 10 0 (counting 49) 0x5C07]⟩ := by decide +kernel

theorem test_decode_e1 : decoded ([0x55, 0x55, 0x65, 0x31] ++ counting 76 ++ [0xF6, 0xC0] ++ [0x99]) =
    some (.framee1 (counting 76) 0xF6C0, [0x99]) := by decide +kernel

theorem test_step_e1 :
    rowAfter (step (standing 0x6531 11 82 76 0x65 0x31
      ([0x55, 0x55, 0x65, 0x31] ++ counting 76 ++ [0xF6, 0xC0]))) =
    some ⟨.searching, [], 82, false, 0xF6C0, 0xF6C0, [.frame 11 0 (counting 76) 0xF6C0]⟩ := by decide +kernel

theorem test_decode_e2 : decoded ([0x55, 0x55, 0x65, 0x32] ++ counting 124 ++ [0x8F, 0x4F] ++ [0x99]) =
    some (.framee2 (counting 124) 0x8F4F, [0x99]) := by decide +kernel

theorem test_step_e2 :
    rowAfter (step (standing 0x6532 12 130 124 0x65 0x32
      ([0x55, 0x55, 0x65, 0x32] ++ counting 124 ++ [0x8F, 0x4F]))) =
    some ⟨.searching, [], 130, false, 0x8F4F, 0x8F4F, [.frame 12 0 (counting 124) 0x8F4F]⟩ := by decide +kernel

theorem test_decode_id : decoded ([0x55, 0x55, 0x69, 0x64] ++ counting 148 ++ [0x09, 0xE2] ++ [0x99]) =
    some (.frameid (counting 148) 0x09E2, [0x99]) := by decide +kernel

theorem test_step_id :
    rowAfter (step (standing 0x6964 13 154 148 0x69 0x64
      ([0x55, 0x55, 0x69, 0x64] ++ counting 148 ++ [0x09, 0xE2]))) =
    some ⟨.searching, [], 154, false, 0x09E2, 0x09E2, [.frame 13 0 (counting 148) 0x09E2]⟩ := by decide +kernel

theorem test_decode_sd : decoded ([0x55, 0x55, 0x73, 0x64] ++ counting 51 ++ [0xC3, 0x5A] ++ [0x99]) =
    some (.framesd (counting 51) 0xC35A, [0x99]) := by decide +kernel

theorem test_step_sd :
    rowAfter (step (standing 0x7364 14 57 51 0x73 0x64
      ([0x55, 0x55, 0x73, 0x64] ++ counting 51 ++ [0xC3, 0x5A]))) =
    some ⟨.searching, [], 57, false, 0xC35A, 0xC35A, [.frame 14 0 (counting 51) 0xC35A]⟩ := by decide +kernel

theorem test_decode_FM : decoded ([0x55, 0x55, 0x46, 0x4D] ++ counting 117 ++ [0x1F, 0xBA] ++ [0x99]) =
    some (.frameFM (counting 117) 0x1FBA, [0x99]) := by decide +kernel

theorem test_step_FM :
    rowAfter (step (standing 0x464D 15 123 117 0x46 0x4D
      ([0x55, 0x55, 0x46, 0x4D] ++ counting 117 ++ [0x1F, 0xBA]))) =
    some ⟨.searching, [], 123, false, 0x1FBA, 0x1FBA, [.frame 15 0 (counting 117) 0x1FBA]⟩ := by decide +kernel

theorem test_decode_REF : decoded ([0xAF, 0x20, 0x05, 0x0D] ++ counting 121 ++ [0xD5, 0x1D] ++ [0x99]) =
    some (.frameREF (counting 121) 0xD51D, [0x99]) := by decide +kernel

theorem test_step_REF : rowAfter (step (ref .searching ([0xAF, 0x20, 0x05, 0x0D] ++ counting 121 ++ [0xD5, 0x1D]))) =
    some ⟨.searching, [], 127, false, 0xD51D, 0xD51D, [.frame 16 0 (counting 121) 0xD51D]⟩ := by decide +kernel

/-- The same frame under REF_SPAN_LO = 2 is rejected ("A frame built for one value is rejected under another"). -/
theorem test_step_REF_other_span :
    ((nextOf (step { ref .searching ([0xAF, 0x20, 0x05, 0x0D] ++ counting 121 ++ [0xD5, 0x1D]) with
      refSpanLo := .two, cfg := ⟨.ref, 0, 16, 127, 0xAF, 0x20, 0x05, 0x0D, 2, 121⟩ })).map fun t =>
      (t.len, t.base, t.lost, t.rxReg)) = some (126, 1, true, 0xD51D) := by decide +kernel

/-- The longest type with its last byte changed to E3 (section 2.3). -/
theorem test_step_id_rejected :
    ((nextOf (step (standing 0x6964 13 154 148 0x69 0x64
      ([0x55, 0x55, 0x69, 0x64] ++ counting 148 ++ [0x09, 0xE3])))).map fun t => (t.evq, t.len)) =
    some ([.syncLoss .checksumMismatch 0 154 0x09E2 0x09E3], 153) := by decide +kernel

theorem test_decode_unknown_header : decoded ([0x55, 0x55, 0x58, 0x58] ++ counting 33) = none := by decide

theorem test_decode_truncated : decoded (g.take 24) = none := by decide

/-! ## Checksums: 95_test_vectors.md sections 2.1 and 2.2 -/

theorem test_crc16_check_value :
    crc16 [0x31, 0x32, 0x33, 0x34, 0x35, 0x36, 0x37, 0x38, 0x39] = 0xE5CC := by decide +kernel

theorem test_crc16_one_bit : crc16 [0x80] = 0x5D14 ∧ crc16 [0x01] = 0xDCBD := by decide +kernel

theorem test_crc_table :
    crcTable 1 = 0x1021 ∧ crcTable 3 = 0x3063 ∧ crcTable 0x80 = 0x9188 ∧ crcTable 0xFF = 0x1EF0 := by decide +kernel

theorem test_sum16_wraps : sum16 [0xFF, 0xFF] = 0xFEFD ∧ sum16 [0x80, 0x80] = 0x0080 := by decide +kernel

theorem test_sum16_missed_pair : sum16 [0x80, 0x00, 0x80] = 0x0000 := by decide +kernel

theorem test_sum16_span : sum16 (List.replicate 121 0xFF) = 0x872B := by decide +kernel

/-- The REF checksums of the payload 00 01 ... 78 under the three candidate values (section 2.3). -/
theorem test_ref_span_lo :
    [RefSpanLo.two, .four, .six].map (fun r =>
      frameChecksum .REF r ((List.range 121).map fun j => BitVec.ofNat 8 j)) = [0x6EE1, 0x5C48, 0x5BD0] := by
  decide +kernel

/-! ## One operation: the rows of 95_test_vectors.md section 2.4 -/

theorem test_reset_sp : rowOf (opReset .sp 0x5341 { sa .emitting g with base := 7, lost := true, evq := [.eos] }) =
    ⟨.searching, [], 0, false, 0, 0, []⟩ ∧ (opReset .sp 0x5341 State.reset).cfg = (sa .searching []).cfg := by
  decide +kernel

theorem test_reset_unknown_key : rowOf (opReset .sp 0x5858 { sa .emitting g with base := 7 }) =
    ⟨.cfgFailed, [], 0, false, 0, 0, []⟩ := by decide +kernel

theorem test_reset_ref : (opReset .ref 0 State.reset).cfg = (ref .searching []).cfg ∧
    (opReset .ref 0 State.reset).st = .searching := by decide +kernel

theorem test_push_first : rowAfter (opPush 0x55 (sa .searching [])) =
    some ⟨.searching, [0x55], 0, false, 0, 0, []⟩ := by decide +kernel

theorem test_push_last : ((nextOf (opPush 0xDD (sa .searching (g.take 24)))).map fun t => (t.buf, t.busy)) =
    some (g, true) := by decide +kernel

theorem test_detect : rowAfter (opDetect (sa .searching g)) = some ⟨.candidate, g, 0, false, 0, 0, []⟩ := by
  decide +kernel

theorem test_check : rowAfter (opCheck (sa .candidate g)) =
    some ⟨.validating, g, 0, false, 0xD3DD, 0xD3DD, []⟩ := by decide +kernel

theorem test_check_corrupted : rowAfter (opCheck (sa .candidate gBad)) =
    some ⟨.validating, gBad, 0, false, 0xD670, 0xD3DD, []⟩ := by decide +kernel

theorem test_accept : rowAfter (opAccept { sa .validating g with calcReg := 0xD3DD, rxReg := 0xD3DD }) =
    some ⟨.emitting, g, 0, false, 0xD3DD, 0xD3DD, []⟩ := by decide +kernel

theorem test_emit : rowAfter (opEmit { sa .emitting g with calcReg := 0xD3DD, rxReg := 0xD3DD }) =
    some ⟨.searching, [], 25, false, 0xD3DD, 0xD3DD, [.frame 6 0 gPayload 0xD3DD]⟩ := by decide +kernel

theorem test_slide : rowAfter (opSlide { sa .validating gBad with calcReg := 0xD670, rxReg := 0xD3DD }) =
    some ⟨.searching, gBad.drop 1, 1, true, 0xD670, 0xD3DD, [.syncLoss .checksumMismatch 0 25 0xD670 0xD3DD]⟩ := by
  decide +kernel

theorem test_hslide : rowAfter (opHslide (sa .searching (0x55 :: g.take 24))) =
    some ⟨.searching, g.take 24, 1, true, 0, 0, [.syncLoss .headerMismatch 0 1 0 0]⟩ := by decide +kernel

theorem test_hslide_suppressed :
    rowAfter (opHslide { sa .searching (g.drop 1 ++ [0x55]) with base := 1, lost := true }) =
    some ⟨.searching, g.drop 2 ++ [0x55], 2, true, 0, 0, []⟩ := by decide +kernel

theorem test_skip : rowAfter (opSkip (sa .searching ([0x00, 0x11, 0x22, 0x33, 0x44] ++ g.take 20))) =
    some ⟨.searching, g.take 20, 5, true, 0, 0, [.syncLoss .skipped 0 5 0 0]⟩ := by decide +kernel

theorem test_skip_suppressed :
    rowAfter (opSkip { sa .searching ([0x01, 0x02, 0x03] ++ g.take 22) with base := 7, lost := true }) =
    some ⟨.searching, g.take 22, 10, true, 0, 0, []⟩ := by decide +kernel

theorem test_flush : rowAfter (opFlush (sa .searching quiet)) =
    some ⟨.searching, [], 25, true, 0, 0, [.syncLoss .noPreamble 0 25 0 0]⟩ := by decide +kernel

theorem test_flush_suppressed : rowAfter (opFlush { sa .searching quiet with base := 25, lost := true }) =
    some ⟨.searching, [], 50, true, 0, 0, []⟩ := by decide +kernel

theorem test_close : rowAfter (opClose { sa .searching [0x55, 0x55, 0x53] with base := 80 }) =
    some ⟨.streamClosed, [], 83, false, 0, 0, [.eos]⟩ := by decide +kernel

theorem test_close_after_reset : rowAfter (opClose (sa .searching [])) =
    some ⟨.streamClosed, [], 0, false, 0, 0, [.eos]⟩ := by decide +kernel

theorem test_push_has_no_step : opPush 0x55 (sa .streamClosed []) = .refused (.noStep .push) ∧
    opPush 0x55 (sa .cfgFailed []) = .refused (.noStep .push) := ⟨rfl, rfl⟩

/-- Vector T4: no byte of a REF frame is 55, so a block configured for SA flushes it. -/
theorem test_ref_frame_under_sa : rowAfter (step (sa .searching ([0xAF, 0x20, 0x05, 0x0D] ++ List.replicate 21 0))) =
    some ⟨.searching, [], 25, true, 0, 0, [.syncLoss .noPreamble 0 25 0 0]⟩ := by decide +kernel

/-- Vector B5: an error in the first preamble byte is skipped to the second. -/
theorem test_step_bad_preamble : rowAfter (step (sa .searching (g.set 0 0x54))) =
    some ⟨.searching, g.drop 1, 1, true, 0, 0, [.syncLoss .skipped 0 1 0 0]⟩ := by decide +kernel

/-! ## Witnesses: the hypotheses of the obligations are met together -/

/-- g as a checked candidate with equal checksums. -/
def checked : State := { sa .validating g with calcReg := 0xD3DD, rxReg := 0xD3DD }

/-- The corrupted frame as a checked candidate. -/
def rejected : State := { sa .validating gBad with calcReg := 0xD670, rxReg := 0xD3DD }

/-- g as an accepted candidate. -/
def accepted : State := { sa .emitting g with calcReg := 0xD3DD, rxReg := 0xD3DD }

/-- A loss event that waits for the sink. -/
def aLoss : Event := .syncLoss .skipped 0 5 0 0

/-- A block with an event pending. -/
def waiting : State := { sa .searching g with evq := [aLoss], pending := some aLoss, base := 5, lost := true }

/-- The REF frame of payload 00 ... 00, valid with checksum 0 (vector R1). -/
def refZero : List Byte := [0xAF, 0x20, 0x05, 0x0D] ++ List.replicate 123 0

/-- A rejected REF candidate: the last checksum byte is 1. -/
def refRejected : State := { ref .validating (refZero.set 126 1) with calcReg := 0, rxReg := 1 }

theorem headValid_of {s : State} {span : List Byte} {rx : Half} (h : s.hdrMatch = true) (h1 : s.span = some span)
    (h2 : s.checksumField = some rx) (h3 : familyChecksum s.cfg.fam span = rx) : s.headValid :=
  ⟨h, span, rx, h1, h2, h3⟩

theorem not_headValid_of {s : State} {span : List Byte} {rx : Half} (h1 : s.span = some span)
    (h2 : s.checksumField = some rx) (h3 : familyChecksum s.cfg.fam span ≠ rx) : ¬ s.headValid := by
  rintro ⟨-, span', rx', e1, e2, e3⟩
  rw [h1] at e1
  rw [h2] at e2
  cases e1
  cases e2
  exact h3 e3

theorem witness_DecodeInvertsEncode : (Instr.frameSA (counting 19) 0x19C4).wf = true ∧
    (Instr.frameREF (List.replicate 121 0) 0xFFFF).wf = true := by decide +kernel

theorem witness_EncodeInvertsDecode : decode (g ++ [0x99]) = .ok (.frameSA gPayload 0xD3DD, [0x99]) := by rfl

theorem witness_UnknownHeadersAreRejected : FrameType.ofHeader 0x55 0x55 0x53 0x42 = none ∧
    FrameType.ofHeader 0x55 0x55 0x53 0x41 = some .SA ∧ FrameType.ofHeader 0x53 0x41 0x55 0x55 = none := by decide

theorem witness_LookupSelectsByKey : lookup .sp 0x5331 = some .S1 ∧ lookup .sp 0x7331 = some .s1 ∧
    lookup .sp 0x050D = none ∧ lookup .sp 0x5858 = none := by decide

theorem witness_HeaderMatchIsTheHeaderWord :
    (4 ≤ (sa .searching (g.take 4)).len ∧ (sa .searching (g.take 4)).headerStands) ∧
    ((sa .searching g).buf = 0x55 :: 0x55 :: 0x53 :: 0x41 :: g.drop 4 ∧ (sa .searching g).configuredFor .SA = true) ∧
    be32 0x55 0x55 0x53 0x41 = FrameType.SA.headerMatch ∧ (sa .searching (g.take 24)).len < (sa .searching []).n := by
  decide +kernel

theorem witness_Crc16ErrorIsIndependentOfData : ([0x10, 0x20] : List Byte).length = ([0x01, 0x80] : List Byte).length ∧
    ([0xFF, 0x00] : List Byte).length = ([0x01, 0x80] : List Byte).length := by decide

theorem witness_SingleBits : g[0]? = some 0x55 ∧ g[24]? = some 0xDD ∧ 0 < 8 ∧ 7 < 8 := by decide

theorem witness_Sum16MissesPairedTopBits : ([0x07] : List Byte).length % 2 = 1 ∧
    sum16 ([0x05] ++ (0x06 ^^^ 0x80) :: ([0x07] ++ (0x08 ^^^ 0x80) :: [0x09])) = sum16 [5, 6, 7, 8, 9] := by
  decide +kernel

theorem witness_DetectFollowsItsRule : (sa .searching g).InSpec ∧
    ((sa .searching g).st = .searching ∧ (sa .searching g).n ≤ (sa .searching g).len ∧ (sa .searching g).headerStands) ∧
    (sa .searching quiet).InSpec ∧ ¬ (sa .searching quiet).headerStands := by decide +kernel

theorem witness_FlushFollowsItsRule : (sa .searching quiet).InSpec ∧ (sa .searching quiet).st = .searching ∧
    (sa .searching quiet).n ≤ (sa .searching quiet).len ∧ (sa .searching quiet).cfg.pre0 ∉ (sa .searching quiet).buf ∧
    (sa .searching g).InSpec ∧ (sa .searching g).cfg.pre0 ∈ (sa .searching g).buf := by decide +kernel

/-- The least and the greatest `k`, and a buffer that still holds N bytes after the discard. -/
theorem witness_SkipFollowsItsRule :
    ((sa .searching (0 :: g.take 24)).InSpec ∧ (sa .searching (0 :: g.take 24)).firstPreambleAt 1 ∧
      ¬ (sa .searching (0 :: g.take 24)).headerStands ∧ 25 ≤ (sa .searching (0 :: g.take 24)).len) ∧
    ((sa .searching (counting 24 ++ [0x55])).InSpec ∧ (sa .searching (counting 24 ++ [0x55])).firstPreambleAt 24 ∧
      ¬ (sa .searching (counting 24 ++ [0x55])).headerStands) ∧
    ((sa .searching (0 :: g)).InSpec ∧ (sa .searching (0 :: g)).firstPreambleAt 1 ∧
      (sa .searching (0 :: g)).n ≤ (sa .searching (0 :: g)).len - 1) ∧
    ((sa .searching quiet).InSpec ∧ (sa .searching quiet).findPreamble = none) := by decide +kernel

theorem witness_HslideFollowsItsRule : (sa .searching (0x55 :: g.take 24)).InSpec ∧
    ¬ (sa .searching (0x55 :: g.take 24)).headerStands ∧ (sa .searching (0x55 :: g.take 24)).bufByte 0 = some 0x55 ∧
    25 ≤ (sa .searching (0x55 :: g.take 24)).len ∧ (sa .searching g).InSpec ∧ (sa .searching g).headerStands := by
  decide +kernel

theorem witness_CheckFollowsItsRule : (sa .candidate g).InSpec ∧ (sa .candidate g).bufByte 23 = some 0xD3 ∧
    (sa .candidate g).bufByte 24 = some 0xDD ∧ (sa .candidate g).n = 25 ∧ (sa .searching g).st ≠ .candidate ∧
    (ref .candidate refZero).InSpec ∧ (ref .candidate refZero).bufByte 126 = some 0 := by decide +kernel

theorem witness_AcceptFollowsItsRule : checked.InSpec ∧ (checked.st = .validating ∧ checked.calcReg = checked.rxReg) ∧
    rejected.InSpec ∧ ¬ (rejected.st = .validating ∧ rejected.calcReg = rejected.rxReg) := by decide +kernel

theorem witness_SlideFollowsItsRule : (rejected.InSpec ∧ 1 ≤ rejected.len ∧ rejected.len = rejected.n ∧
      rejected.st = .validating ∧ rejected.calcReg ≠ rejected.rxReg) ∧
    (checked.InSpec ∧ 1 ≤ checked.len ∧ ¬ (checked.st = .validating ∧ checked.calcReg ≠ checked.rxReg)) := by
  decide +kernel

theorem witness_EmitFollowsItsRule : accepted.InSpec ∧ accepted.n ≤ accepted.len ∧ accepted.st = .emitting ∧
    accepted.len = accepted.n ∧ checked.InSpec ∧ checked.n ≤ checked.len ∧ checked.st ≠ .emitting := by decide +kernel

/-- Byte 0, byte N - 1, and no room. -/
theorem witness_PushFollowsItsRule :
    ((sa .searching []).configured = true ∧ (sa .searching []).st = .searching ∧
      (sa .searching []).len < (sa .searching []).n) ∧
    ((sa .searching (g.take 24)).len < (sa .searching (g.take 24)).n ∧
      ((sa .searching (g.take 24)).append 0xDD).len = (sa .searching (g.take 24)).n) ∧
    ((sa .searching g).configured = true ∧ ¬ (sa .searching g).len < (sa .searching g).n) := by decide +kernel

theorem witness_CloseFollowsItsRule :
    ((sa .searching (g.take 3)).configured = true ∧ (sa .searching (g.take 3)).len < (sa .searching (g.take 3)).n) ∧
    ((sa .streamClosed []).configured = true ∧ (sa .streamClosed []).st ≠ .searching) := by decide +kernel

theorem witness_ResetFollowsItsRule : lookup .sp 0x5341 = some .SA ∧ lookup .ref 0x1234 = some .REF ∧
    lookup .sp 0x5858 = none ∧ ({ State.reset with requests := [.reset .sp 0x5341, .close] } : State).requests =
      .reset .sp 0x5341 :: [.close] := by decide

/-- Every internal operation is enabled somewhere, and nowhere else than there. -/
theorem witness_ExactlyOneInternalOperation :
    [sa .searching g, sa .searching quiet, sa .searching (0 :: g.take 24), sa .searching (0x55 :: g.take 24),
      sa .candidate g, checked, rejected, accepted, sa .searching [], sa .cfgFailed []].map State.enabledOp =
    [some .detect, some .flush, some .skip, some .hslide, some .check, some .accept, some .slide, some .emit, none, none] ∧
    (sa .searching g).busy = true := by decide +kernel

/-- A verdict of either kind; a preloaded buffer with LEN = CAP, and one with LEN = N. -/
theorem witness_InternalOperationsMakeProgress : (rejected.candidateInv ∧ (nextOf (internal rejected)).isSome = true) ∧
    (accepted.candidateInv ∧ (nextOf (internal accepted)).isSome = true) ∧
    ((sa .searching (g ++ g)).candidateInv ∧ (sa .searching (g ++ g)).InSpec ∧ (sa .searching (g ++ g)).busy = true ∧
      (sa .searching (g ++ g)).len = (sa .searching (g ++ g)).cap) ∧
    (rejected.InSpec ∧ rejected.busy = true ∧ rejected.len = rejected.n) := by decide +kernel

/-- The idle states that each lead to one of the six sequences (95_test_vectors.md section 2.4 and programs P2, P4). -/
theorem witness_MacroStepIsOneOfSixSequences :
    (invHolds (sa .searching []) = true ∧ (sa .searching []).idle = true ∧
      (sa .searching []).len + 1 < (sa .searching []).n) ∧
    (invHolds (sa .searching (g.take 24)) = true ∧ (sa .searching (g.take 24)).idle = true ∧
      (sa .searching (g.take 24)).len + 1 = (sa .searching (g.take 24)).n ∧
      ((sa .searching (g.take 24)).append 0xDD).headerStands) ∧
    (invHolds (sa .searching (quiet.take 24)) = true ∧ (sa .searching (quiet.take 24)).idle = true ∧
      (sa .searching (quiet.take 24)).cfg.pre0 ∉ ((sa .searching (quiet.take 24)).append 0x19).buf) ∧
    (invHolds (sa .searching (0 :: g.take 23)) = true ∧ (sa .searching (0 :: g.take 23)).idle = true ∧
      ¬ ((sa .searching (0 :: g.take 23)).append 0xD3).headerStands ∧
      ((sa .searching (0 :: g.take 23)).append 0xD3).firstPreambleAt 1) ∧
    (invHolds (sa .searching (0x55 :: g.take 23)) = true ∧ (sa .searching (0x55 :: g.take 23)).idle = true ∧
      ¬ ((sa .searching (0x55 :: g.take 23)).append 0xD3).headerStands ∧
      ((sa .searching (0x55 :: g.take 23)).append 0xD3).firstPreambleAt 0) := by decide +kernel

theorem witness_MacroStep_valid : ((sa .searching (g.take 24)).append 0xDD).headValid :=
  headValid_of (span := (g.take 23).drop 2) (rx := 0xD3DD) (by decide +kernel) (by decide +kernel) (by decide +kernel)
    (by decide +kernel)

theorem witness_MacroStep_invalid : ((sa .searching (g.take 24)).append 0xDC).headerStands ∧
    ¬ ((sa .searching (g.take 24)).append 0xDC).headValid :=
  ⟨by decide +kernel,
    not_headValid_of (span := (g.take 23).drop 2) (rx := 0xD3DC) (by decide +kernel) (by decide +kernel)
      (by decide +kernel)⟩

theorem witness_FeedAlwaysCompletes :
    invHolds (sa .searching (g.take 24)) = true ∧ (sa .searching (g.take 24)).idle = true := by
  decide +kernel

/-- An empty read before, between and after two bytes. -/
def reads : List Request := [.nothing, .push 0x55, .nothing, .push 0x56, .nothing]

/-- A block in the middle of a loss, with an event pending, a sink that stalls once, and what the host presents. -/
def stalled (requests : List Request) : State := { waiting with sink := [false, true], requests := requests }

/-- Without and with CLOSE at the end; idle, and busy with an event pending. -/
theorem witness_ChunkingDoesNotMatter :
    (reads.filter fun r => decide (r ≠ .nothing)) = chunkRequests [0x55, 0x56] ∧
    (invHolds { sa .searching [] with requests := reads } = true ∧ (sa .searching []).st.running = true) ∧
    (invHolds (stalled (reads ++ [.close])) = true ∧ (stalled (reads ++ [.close])).st.running = true ∧
      (stalled (reads ++ [.close])).busy = true ∧ (stalled (reads ++ [.close])).requests = reads ++ [.close]) := by
  decide +kernel

/-- The state of `witness_StepsImplementFeed`, with a sink that is ready at every moment and with one that stalls. -/
def presented (sink : List Bool) : State := { sa .searching [] with requests := [.push 0x55, .push 0x55], sink := sink }

theorem witness_StepsImplementFeed :
    (invHolds (presented []) = true ∧ (presented []).idle = true ∧ (presented []).pending = none ∧
      (presented []).requests = chunkRequests [0x55, 0x55]) ∧
    (invHolds (presented [false, false, true]) = true ∧ (presented [false, false, true]).idle = true ∧
      (presented [false, false, true]).pending = none) := by decide +kernel

/-- Feeding the frame g alone (vector G0). -/
theorem witness_ValidFramesAreNotLost :
    ValidFrameAt .SA State.reset.refSpanLo gPayload g 0 ∧ lookup .sp 0x5341 = some .SA ∧
    ∃ u, feed g (opReset .sp 0x5341 State.reset) = .next u ∧ frameOffsets u.evq = [0] := by
  refine ⟨⟨by decide, by decide +kernel⟩, by decide, ?_⟩
  refine ⟨{ sa .searching [] with
    base := 25, calcReg := 0xD3DD, rxReg := 0xD3DD, evq := [.frame 6 0 gPayload 0xD3DD]
    pending := some (.frame 6 0 gPayload 0xD3DD) }, next_of (by decide +kernel), by decide⟩

theorem witness_GarbageThenFrameGivesOneFrame : lookup .sp 0x5341 = some .SA ∧
    hiByte FrameType.SA.family.preamble ∉ ([0x00] : List Byte) ∧ ([0x00] : List Byte).length < FrameType.SA.size ∧
    hiByte FrameType.SA.family.preamble ∉ quiet ∧ quiet.length = FrameType.SA.size ∧
    gPayload.length = FrameType.SA.payloadLen ∧ hiByte FrameType.REF.family.preamble ∉ quiet := by decide +kernel

theorem witness_DiscardsPassNoFrameStart :
    (invHolds (sa .searching quiet) = true ∧ (nextOf (perform 0 .flush (sa .searching quiet))).isSome = true) ∧
    (invHolds (sa .searching (0 :: g.take 24)) = true ∧
      (nextOf (perform 0 .skip (sa .searching (0 :: g.take 24)))).isSome = true) ∧
    (invHolds (sa .searching (0x55 :: g.take 24)) = true ∧
      (nextOf (perform 0 .hslide (sa .searching (0x55 :: g.take 24)))).isSome = true) ∧
    (invHolds rejected = true ∧ (nextOf (perform 0 .slide rejected)).isSome = true) := by decide +kernel

theorem witness_WhatFollowsASlide : invHolds rejected = true ∧ (nextOf (opSlide rejected)).isSome = true ∧
    rejected.cfg.fam = .sp ∧ invHolds refRejected = true ∧ (nextOf (opSlide refRejected)).isSome = true ∧
    refRejected.cfg.fam = .ref := by decide +kernel

/-- The hypotheses of a frame type's rule at a state, and its verdict: whether the checksum is the transmitted one. -/
def meets (cfg : PacketDefinition) (size spanLo : Nat) (sum : List Byte → Half) (s : State) (payload : List Byte)
    (chk : Half) (equal : Bool) : Bool :=
  decide (s.cfg = cfg ∧ s.st = .searching ∧ s.pending = none ∧ s.len ≤ 2 * size ∧ payload.length = size - 6 ∧
    s.buf.take size = [cfg.pre0, cfg.pre1, cfg.mark0, cfg.mark1] ++ (payload ++ [hiByte chk, loByte chk])) &&
  (sum ((s.buf.take (size - 2)).drop spanLo) == chk) == equal

/-- Both verdicts are met by a frame of the payload 01 02 03 ... with its checksum and with 0000. -/
def meetsBoth (cfg : PacketDefinition) (size spanLo : Nat) (sum : List Byte → Half) (chk : Half) : Bool :=
  let at_ (c : Half) : State :=
    { State.reset with
      cfg := cfg, st := .searching
      buf := [cfg.pre0, cfg.pre1, cfg.mark0, cfg.mark1] ++ (counting (size - 6) ++ [hiByte c, loByte c]) }
  meets cfg size spanLo sum (at_ chk) (counting (size - 6)) chk true &&
    meets cfg size spanLo sum (at_ 0) (counting (size - 6)) 0 false

theorem witness_FramesA1ToMGFollowTheirRules :
    meetsBoth ⟨.sp, 0x4131, 0, 39, 0x55, 0x55, 0x41, 0x31, 2, 33⟩ 39 2 crc16 0xAB7A = true ∧
    meetsBoth ⟨.sp, 0x4132, 1, 37, 0x55, 0x55, 0x41, 0x32, 2, 31⟩ 37 2 crc16 0x4F03 = true ∧
    meetsBoth ⟨.sp, 0x5330, 2, 37, 0x55, 0x55, 0x53, 0x30, 2, 31⟩ 37 2 crc16 0xAADE = true ∧
    meetsBoth ⟨.sp, 0x5331, 3, 31, 0x55, 0x55, 0x53, 0x31, 2, 25⟩ 31 2 crc16 0x0458 = true ∧
    meetsBoth ⟨.sp, 0x5348, 4, 37, 0x55, 0x55, 0x53, 0x48, 2, 31⟩ 37 2 crc16 0x3EB5 = true ∧
    meetsBoth ⟨.sp, 0x4533, 5, 39, 0x55, 0x55, 0x45, 0x33, 2, 33⟩ 39 2 crc16 0x0FE4 = true ∧
    meetsBoth ⟨.sp, 0x5341, 6, 25, 0x55, 0x55, 0x53, 0x41, 2, 19⟩ 25 2 crc16 0x19C4 = true ∧
    meetsBoth ⟨.sp, 0x4D47, 7, 35, 0x55, 0x55, 0x4D, 0x47, 2, 29⟩ 35 2 crc16 0xCDB2 = true := by decide +kernel

theorem witness_Framesz1ToFMFollowTheirRules :
    meetsBoth ⟨.sp, 0x7A31, 8, 47, 0x55, 0x55, 0x7A, 0x31, 2, 41⟩ 47 2 crc16 0xC73A = true ∧
    meetsBoth ⟨.sp, 0x7331, 9, 59, 0x55, 0x55, 0x73, 0x31, 2, 53⟩ 59 2 crc16 0xC0BA = true ∧
    meetsBoth ⟨.sp, 0x6132, 10, 55, 0x55, 0x55, 0x61, 0x32, 2, 49⟩ 55 2 crc16 0x5C07 = true ∧
    meetsBoth ⟨.sp, 0x6531, 11, 82, 0x55, 0x55, 0x65, 0x31, 2, 76⟩ 82 2 crc16 0xF6C0 = true ∧
    meetsBoth ⟨.sp, 0x6532, 12, 130, 0x55, 0x55, 0x65, 0x32, 2, 124⟩ 130 2 crc16 0x8F4F = true ∧
    meetsBoth ⟨.sp, 0x6964, 13, 154, 0x55, 0x55, 0x69, 0x64, 2, 148⟩ 154 2 crc16 0x09E2 = true ∧
    meetsBoth ⟨.sp, 0x7364, 14, 57, 0x55, 0x55, 0x73, 0x64, 2, 51⟩ 57 2 crc16 0xC35A = true ∧
    meetsBoth ⟨.sp, 0x464D, 15, 123, 0x55, 0x55, 0x46, 0x4D, 2, 117⟩ 123 2 crc16 0x1FBA = true := by decide +kernel

theorem witness_FrameREFFollowsItsRule :
    meetsBoth ⟨.ref, 0, 16, 127, 0xAF, 0x20, 0x05, 0x0D, 4, 121⟩ 127 4 sum16 0xD51D = true := by decide +kernel

/-- At the earliest and at the latest state of a frame's rule. -/
theorem witness_FrameIsItsOperations : (Instr.frameSA gPayload 0xD3DD).wf = true ∧
    ((sa .searching g).configuredFor .SA = true ∧ (sa .searching g).atHead .SA gPayload 0xD3DD = true ∧
      (sa .searching g).st.running = true ∧ (sa .searching g).pending = none ∧
      (sa .searching g).resetPresented = false) ∧
    (accepted.configuredFor .SA = true ∧ accepted.atHead .SA gPayload 0xD3DD = true ∧ accepted.st.running = true ∧
      accepted.pending = none ∧ accepted.resetPresented = false) := by decide +kernel

/-- The type S1 configured and a frame of SA at the head. -/
def otherSp : State := standing 0x5331 3 31 25 0x53 0x31 (g ++ List.replicate 6 0)

/-- REF configured and a frame of SA at the head, without and with an AF byte after it. -/
def otherRef (b : Byte) : State := ref .searching (g ++ List.replicate 101 0 ++ [b])

/-- Same family; another family with FLUSH; another family with SKIP. -/
theorem witness_OtherTypesAreGarbage :
    (otherSp.configuredFor .S1 = true ∧ otherSp.atHead .SA gPayload 0xD3DD = true ∧ otherSp.n ≤ otherSp.len ∧
      otherSp.len ≤ otherSp.cap ∧ (nextOf (opHslide otherSp)).isSome = true) ∧
    ((otherRef 0).configuredFor .REF = true ∧ (otherRef 0).atHead .SA gPayload 0xD3DD = true ∧
      (otherRef 0).n ≤ (otherRef 0).len ∧ (otherRef 0).len ≤ (otherRef 0).cap ∧
      (nextOf (opFlush (otherRef 0))).isSome = true) ∧
    ((otherRef 0xAF).configuredFor .REF = true ∧ (otherRef 0xAF).atHead .SA gPayload 0xD3DD = true ∧
      (nextOf (opSkip (otherRef 0xAF))).isSome = true) := by decide +kernel

theorem witness_FramesWaitForTheSink : waiting.atHead .SA gPayload 0xD3DD = true ∧ waiting.pending = some aLoss := by
  decide +kernel

/-- A frame that does not stand at the head; a candidate one byte short; one byte above CAP; no configuration. -/
theorem witness_StopsStandOutsideTheRules :
    (sa .searching g).buf.take FrameType.SA.size ≠ encode (.frameSA gPayload 0xD3DC) ∧
    ((sa .candidate (g.take 24)).InSpec ∧ (sa .candidate (g.take 24)).len < (sa .candidate (g.take 24)).n) ∧
    ((sa .searching (g ++ g ++ [0])).configured = true ∧
      (sa .searching (g ++ g ++ [0])).cap < (sa .searching (g ++ g ++ [0])).len) ∧
    (({ State.reset with st := .searching } : State).configured = false ∧
      ({ State.reset with st := .searching } : State).busy = true) := by decide +kernel

theorem witness_FramesKeepTheirFrame : ∃ t, exec (.frameSA gPayload 0xD3DD) (sa .searching g) = .next t :=
  exists_next (by decide +kernel)

theorem witness_StepRunsTheDecodedInstruction : decode (sa .searching g).buf = .ok (.frameSA gPayload 0xD3DD, []) ∧
    (sa .searching g).st.running = true ∧ (sa .searching g).n ≤ (sa .searching g).len ∧
    (sa .searching g).resetPresented = false := ⟨by rfl, by decide, by decide, by decide⟩

/-- An idle block of SA with one byte, to which the host presents requests. -/
def idleWith (requests : List Request) : State := { sa .searching [0x55] with requests := requests }

/-- Without any frame and with a frame of a type that is not configured; an event pending; and each request of an idle
block. -/
theorem witness_StepWithoutAFrameIsOneOperation :
    ((sa .searching quiet).fetch = none ∧ (sa .searching quiet).resetPresented = false ∧
      (sa .searching quiet).pending = none ∧ (sa .searching quiet).busy = true) ∧
    (otherSp.fetch = some (.frameSA gPayload 0xD3DD) ∧ otherSp.configuredFor .SA = false ∧ otherSp.busy = true) ∧
    (waiting.pending = some aLoss ∧ waiting.resetPresented = false) ∧
    ([[], [.push 0x55], [.close], [.nothing]].map fun r => ((idleWith r).idle, (idleWith r).pending,
      (idleWith r).configured, (idleWith r).requests == r)) = List.replicate 4 (true, none, true, true) ∧
    (idleWith [.reset .ref 0]).requests = [.reset .ref 0] := by decide +kernel

/-- One step of an idle block: CLOSE, as 95_test_vectors.md section 2.4 has it, and an empty read. -/
theorem test_step_close : rowAfter (step { sa .searching [0x55, 0x55, 0x53] with base := 80, requests := [.close] }) =
    some ⟨.streamClosed, [], 83, false, 0, 0, [.eos]⟩ := by decide +kernel

theorem test_step_empty_read : nextOf (step (idleWith [.nothing, .close])) = some (idleWith [.close]) := by decide +kernel

/-- Also the witness of NothingFaults. -/
theorem witness_ResetEstablishesTheInvariant : State.reset.Inv ∧ State.reset.offsetsInv := by decide +kernel

/-- Both verdicts of a frame, with an event and a position behind it. -/
theorem witness_StepKeepsTheInvariant :
    invHolds accepted = true ∧ (nextOf (step accepted)).isSome = true ∧ invHolds rejected = true ∧
    (nextOf (step rejected)).isSome = true := by decide +kernel

/-- A block that has emitted a frame at offset 0 and holds the next one. -/
def second : State := { sa .searching g with evq := [.frame 6 0 gPayload 0xD3DD], base := 25 }

theorem witness_StepKeepsOffsetOrder :
    invHolds second = true ∧ second.offsetsInv ∧ second.base.toNat + second.len < 2 ^ 64 ∧
    (nextOf (step second)).isSome = true := by decide +kernel

/-- A closed block to which the host presents a PUSH, or a CLOSE, and nothing after it. -/
def late (r : Request) : State := { sa .streamClosed [] with evq := [.eos], requests := [r] }

theorem witness_OnlyLateRequestsAreRefused :
    invHolds (late (.push 0)) = true ∧ step (late (.push 0)) = .refused (.noStep .push) ∧
    invHolds (late .close) = true ∧ step (late .close) = .refused (.noStep .close) :=
  ⟨by decide +kernel, by rfl, by decide +kernel, by rfl⟩

theorem witness_ConfigurationChangesOnlyAtReset :
    ((nextOf (step { State.reset with requests := [.reset .sp 0x5341] })).map fun t => t.cfg == State.reset.cfg) =
      some false ∧
    ((nextOf (step { State.reset with requests := [.push 0, .reset .sp 0x5341] })).map State.cfg) =
      some (sa .searching []).cfg := by decide +kernel

theorem witness_AtMostOneEventPerStep : (nextOf (step (sa .searching []))).isSome = true ∧
    (nextOf (step second)).isSome = true ∧
    (nextOf (step { second with requests := [.reset .ref 0] })).isSome = true := by decide +kernel

theorem witness_PendingEventHoldsTheBlock : invHolds waiting = true ∧ waiting.pending = some aLoss ∧
    waiting.resetPresented = false ∧ waiting.sink = [] ∧ invHolds ({ waiting with sink := [false] } : State) = true ∧
    invHolds ({ waiting with sink := [true] } : State) = true := by decide +kernel

/-- The three final phases, and each of the requests. -/
theorem witness_OnlyResetLeavesAFinalPhase : (late (.push 0)).st = .streamClosed ∧ (late (.push 0)).pending = none ∧
    nextReset (late (.push 0)).requests = none ∧ nextReset (late .close).requests = none ∧
    (nextOf (step (late .nothing))).isSome = true ∧ State.reset.st = .unreset ∧ State.reset.requests = [] ∧
    (opReset .sp 0x5858 State.reset).st = .cfgFailed ∧ (opReset .sp 0x5858 State.reset).pending = none ∧
    (late (.reset .sp 0x5341)).requests = [.reset .sp 0x5341] := by decide +kernel

/-- A PUSH, and a CLOSE, that a RESET follows in a final phase: program P8 of 95_test_vectors.md, key "s1" in the end. -/
theorem witness_OnlyResetLeavesAFinalPhase_void :
    (late (.push 0)).st = .streamClosed ∧
    nextReset [.push 0x55, .close, .reset .sp 0x7331] = some (.sp, 0x7331, []) ∧
    nextReset [.close, .reset .sp 0x7331, .nothing] = some (.sp, 0x7331, [.nothing]) ∧
    ((nextOf (step { opReset .sp 0x5858 State.reset with requests := [.push 0x55, .close, .reset .sp 0x7331] })).map
      fun t => (t.st, t.cfg.idx, t.n)) = some (.searching, 9, 59) := by decide +kernel

/-- The invariant with and without bytes; a phase after the first RESET, ready, failed and closed; an event pending, and a
sink that is ready, not ready, or used up. -/
theorem witness_StatusShowsTheRegisters : (invHolds (sa .searching (g.take 24)) = true ∧ invHolds State.reset = true) ∧
    ((sa .searching []).st ≠ .unreset ∧ (sa .searching []).inReady = true ∧ (sa .cfgFailed []).cfgErr = true ∧
      (sa .streamClosed []).closed = true ∧ waiting.inReady = false ∧ (sa .searching []).cfgErr = false) ∧
    (waiting.pendingInv ∧ waiting.pending = some aLoss ∧ waiting.delivered = [] ∧
      waiting.sinkMoment.delivered = [aLoss]) ∧
    (({ waiting with sink := [false] } : State).sink.head? = some false ∧
      ({ waiting with sink := [true] } : State).sink.head? ≠ some false ∧ waiting.sink.head? ≠ some false) := by
  decide +kernel

/-- Every operation answers a next state somewhere. -/
theorem witness_EveryOperationRuns :
    ([(.push, sa .searching []), (.close, sa .searching []), (.detect, sa .searching g), (.flush, sa .searching quiet),
      (.skip, sa .searching (0 :: g.take 24)), (.hslide, sa .searching (0x55 :: g.take 24)), (.check, sa .candidate g),
      (.accept, checked), (.slide, rejected), (.emit, accepted)] : List (Op × State)).all
      (fun x => (nextOf (perform 0 x.1 x.2)).isSome) = true := by decide +kernel

/-- The same frame with different bytes after it and different history. -/
theorem witness_CheckReadsOnlyTheFrame : (sa .candidate g).cfg = (sa .candidate (g ++ [1])).cfg ∧
    (sa .candidate g).buf.take 25 = (sa .candidate (g ++ [1])).buf.take 25 ∧
    (nextOf (opCheck (sa .candidate g))).isSome = true ∧
    (nextOf (opCheck { sa .candidate (g ++ [1]) with base := 9, lost := true })).isSome = true := by decide +kernel

theorem witness_InstancesAreIsolated : ∃ l, stepInstance 1 [State.reset, sa .searching quiet] = .next l := ⟨_, rfl⟩

/-! ## What the host asks of every row: the header word decodes, and step runs it (30_encoding.md section 3) -/

theorem test_fetch_word : decodeTableWord 32 0x55555341 = some (.frameSA (List.replicate 19 0) 0) ∧
    (nextOf (step (State.reset.withFetchWord 32 0x55555341))).isSome = true := by decide +kernel

end Sys2Proof.Tests
end

section
/-! PROOF. HDR_MATCH (30_encoding.md R52): the comparison of the head of the Frame Buffer with the configured header, as the
four bytes at offsets 0 to 3, as the header word of the configured type, and as the guard of DETECT. -/

namespace Sys2Proof

/-- Two concatenations of equal widths are equal exactly when their halves are. -/
theorem bitVec_append_eq_append_iff {m n : Nat} {a c : BitVec m} {b d : BitVec n} :
    a ++ b = c ++ d ↔ a = c ∧ b = d := by
  constructor
  · intro h
    have high := congrArg (BitVec.extractLsb' n m) h
    have low := congrArg (BitVec.extractLsb' 0 n) h
    rw [BitVec.extractLsb'_append_eq_left, BitVec.extractLsb'_append_eq_left] at high
    rw [BitVec.extractLsb'_append_eq_right, BitVec.extractLsb'_append_eq_right] at low
    exact ⟨high, low⟩
  · rintro ⟨rfl, rfl⟩
    rfl

/-- Assembling two bytes answers `w` exactly when they are its wire bytes (R37). -/
theorem be16_eq_iff {h l : Byte} {w : Half} : be16 h l = w ↔ h = hiByte w ∧ l = loByte w := by
  constructor
  · rintro rfl
    simp
  · rintro ⟨rfl, rfl⟩
    exact be16_hi_lo w

/-- The header word is a type's match value exactly when the four bytes are its header bytes (R47). -/
theorem be32_eq_headerMatch_iff {b0 b1 b2 b3 : Byte} {t : FrameType} :
    be32 b0 b1 b2 b3 = t.headerMatch ↔ t.header = [b0, b1, b2, b3] := by
  have halves : be32 b0 b1 b2 b3 = t.headerMatch ↔ be16 b0 b1 = t.family.preamble ∧ be16 b2 b3 = t.marker :=
    bitVec_append_eq_append_iff
  rw [halves, be16_eq_iff, be16_eq_iff]
  simp [FrameType.header, eq_comm, and_assoc]

namespace Machine

@[simp] theorem definitionHeader_length (d : PacketDefinition) : (definitionHeader d).length = 4 := rfl

/-- RESET loads the header bytes of the type it configures (R17). -/
theorem definitionHeader_of_configuredFor {s : State} {t : FrameType} (h : s.configuredFor t = true) :
    definitionHeader s.cfg = t.header := by
  rw [((configuredFor_iff s t).1 h).2]
  rfl

/-- HDR_MATCH says that the buffer begins with the configured header. -/
theorem hdrMatch_iff_prefix (s : State) : s.hdrMatch = true ↔ definitionHeader s.cfg <+: s.buf := by
  rw [State.hdrMatch, beq_iff_eq, List.prefix_iff_eq_take, definitionHeader_length, eq_comm]

/-- A buffer begins with the configured header exactly when its first four bytes are PRE and MARK. -/
theorem definitionHeader_prefix_iff_headerStands (s : State) : definitionHeader s.cfg <+: s.buf ↔ s.headerStands := by
  rw [List.prefix_iff_getElem?]
  constructor
  · exact fun h => ⟨h 0 (by simp), h 1 (by simp), h 2 (by simp), h 3 (by simp)⟩
  · rintro ⟨h0, h1, h2, h3⟩ i hi
    match i, hi with
    | 0, _ => exact h0
    | 1, _ => exact h1
    | 2, _ => exact h2
    | 3, _ => exact h3

/-- HDR_MATCH, byte by byte (R52). -/
theorem hdrMatch_iff_headerStands (s : State) : s.hdrMatch = true ↔ s.headerStands :=
  (hdrMatch_iff_prefix s).trans (definitionHeader_prefix_iff_headerStands s)

/-- HDR_MATCH needs the four header bytes to be in the buffer (R52). -/
theorem four_le_len_of_hdrMatch {s : State} (h : s.hdrMatch = true) : 4 ≤ s.len :=
  ((hdrMatch_iff_prefix s).1 h).length_le

/-- Under a configured type HDR_MATCH is equality of the header word with that type's match value (R47, R52). -/
theorem hdrMatch_iff_be32_eq_headerMatch {s : State} {t : FrameType} {b0 b1 b2 b3 : Byte} {rest : List Byte}
    (hb : s.buf = b0 :: b1 :: b2 :: b3 :: rest) (ht : s.configuredFor t = true) :
    s.hdrMatch = true ↔ be32 b0 b1 b2 b3 = t.headerMatch := by
  rw [be32_eq_headerMatch_iff, hdrMatch_iff_prefix, definitionHeader_of_configuredFor ht, hb]
  simp [FrameType.header]

/-- DETECT is the enabled operation only with at least N bytes in the buffer (R67, R69). -/
theorem n_le_len_of_enabledOp_detect {s : State} (h : s.enabledOp = some .detect) : s.n ≤ s.len := by
  cases hst : s.st with
  | searching =>
    by_contra hlt
    simp [State.enabledOp, hst, hlt] at h
  | validating =>
    simp only [State.enabledOp, hst] at h
    split at h <;> simp at h
  | candidate | emitting | streamClosed | cfgFailed | unreset => simp [State.enabledOp, hst] at h

end Machine

/-- Settles O7: the buffer begins with the configured header, read once as the four bytes and once as the header word. -/
theorem headerMatchIsTheHeaderWord : Obligations.HeaderMatchIsTheHeaderWord := by
  intro s
  refine ⟨⟨fun h => ?_, fun h => ?_⟩, fun _ _ _ _ _ _ hb ht => ?_, fun hlt hd => ?_⟩
  · exact ⟨Machine.four_le_len_of_hdrMatch h, (Machine.hdrMatch_iff_headerStands s).1 h⟩
  · exact (Machine.hdrMatch_iff_headerStands s).2 h.2
  · exact Machine.hdrMatch_iff_be32_eq_headerMatch hb ht
  · exact absurd (Machine.n_le_len_of_enabledOp_detect hd) (Nat.not_le.2 hlt)

end Sys2Proof
end

section
/-! PROOF. PUSH (40_byte_input.md R61): its guard is idleness, one appended byte leaves LEN at most N, and with N bytes
in SEARCHING an internal operation is enabled. -/

namespace Sys2Proof

namespace Machine

/-- Idle is SEARCHING with less than a frame in the buffer (R14). -/
theorem idle_iff (s : State) : s.idle = true ↔ s.st = .searching ∧ s.len < s.n := by
  simp [State.idle]

/-- With a frame's bytes in the buffer the block is not idle (R14). -/
theorem idle_eq_false_of_n_le_len {s : State} (h : s.n ≤ s.len) : s.idle = false := by
  rw [← Bool.not_eq_true, idle_iff]
  exact fun hi => Nat.not_le.2 hi.2 h

/-- LEN ≤ CAP wherever less than a frame is in the buffer (R7). -/
theorem len_le_cap_of_len_lt_n {s : State} (h : s.len < s.n) : s.len ≤ s.cap := by
  unfold State.cap
  omega

/-- In SEARCHING with at least N bytes an internal operation is enabled: DETECT on a header match, and otherwise the one
that the first PRE[0] byte selects (R67, R99). -/
theorem enabledOp_ne_none_of_n_le_len {s : State} (hst : s.st = .searching) (hfull : s.n ≤ s.len) :
    s.enabledOp ≠ none := by
  simp only [State.enabledOp, hst, if_pos hfull]
  split
  · simp
  · split <;> simp

/-- PUSH into an idle block appends its byte (R61). -/
theorem opPush_of_idle {s : State} (b : Byte) (hc : s.configured = true) (hi : s.idle = true) :
    opPush b s = .next (s.append b) :=
  guarded_of hi hc (len_le_cap_of_len_lt_n ((idle_iff s).1 hi).2)

/-- PUSH has no step in a block that is not idle (R61). -/
theorem opPush_of_not_idle {s : State} (b : Byte) (hi : ¬ s.idle = true) : opPush b s = .refused (.noStep .push) :=
  guarded_of_not (Bool.eq_false_of_not_eq_true hi)

end Machine

/-- Settles O23: PUSH is guarded by idleness, and the byte that fills the frame ends the idleness. -/
theorem pushFollowsItsRule : Obligations.PushFollowsItsRule := by
  intro s b hc
  rw [← Machine.idle_iff]
  refine ⟨fun hi => ?_, Machine.opPush_of_not_idle b⟩
  obtain ⟨hst, hlt⟩ := (Machine.idle_iff s).1 hi
  refine ⟨Machine.opPush_of_idle b hc hi, Machine.bufByte_append_len s b, Machine.State.len_append s b, ?_,
    fun hfull => ?_⟩
  · exact (Machine.State.len_append s b).le.trans hlt
  · have hn : (s.append b).n ≤ (s.append b).len := hfull.ge
    exact ⟨Machine.idle_eq_false_of_n_le_len hn, Machine.enabledOp_ne_none_of_n_le_len hst hn⟩

end Sys2Proof
end

section
/-! PROOF. The Synchronizer (41_synchronizer.md R69 to R72): the guards of DETECT, FLUSH, SKIP and HSLIDE in terms of the
buffer's bytes, and the one effect that the three discards share (R73, R144). -/

namespace Sys2Proof

namespace Machine

/-! ### The operands of the guards -/

theorem fullSearch_iff (s : State) : s.fullSearch = true ↔ s.st = .searching ∧ s.n ≤ s.len := by
  simp [State.fullSearch]

theorem hdrMatch_eq_false_iff (s : State) : s.hdrMatch = false ↔ ¬ s.headerStands := by
  rw [← Bool.not_eq_true, hdrMatch_iff_headerStands]

theorem findPreamble_eq_none_iff (s : State) : s.findPreamble = none ↔ s.cfg.pre0 ∉ s.buf := findByte_none

/-- A preamble byte stands first at one offset only (R10). -/
theorem firstPreambleAt_unique {s : State} {j k : Nat} (hj : s.firstPreambleAt j) (hk : s.firstPreambleAt k) : j = k := by
  obtain ⟨hj, hjmin⟩ := hj
  obtain ⟨hk, hkmin⟩ := hk
  rcases Nat.lt_trichotomy j k with hlt | heq | hgt
  · exact absurd hj (hkmin j hlt)
  · exact heq
  · exact absurd hk (hjmin k hgt)

/-- The search answers `k` exactly when the first PRE[0] byte stands at offset `k` (R10, R67). -/
theorem findPreamble_eq_some_iff (s : State) (k : Nat) : s.findPreamble = some k ↔ s.firstPreambleAt k := by
  refine ⟨findByte_some, fun hk => ?_⟩
  cases hf : s.findPreamble with
  | none => exact absurd (List.mem_of_getElem? hk.1) ((findPreamble_eq_none_iff s).1 hf)
  | some j => rw [firstPreambleAt_unique (findByte_some hf) hk]

theorem firstPreambleAt_zero_iff (s : State) : s.firstPreambleAt 0 ↔ s.bufByte 0 = some s.cfg.pre0 := by
  simp [State.firstPreambleAt]

/-- The configured header begins with PRE[0], so it stands in no buffer without that byte (R52, R70). -/
theorem not_headerStands_of_pre0_not_mem {s : State} (h : s.cfg.pre0 ∉ s.buf) : ¬ s.headerStands :=
  fun hh => h (List.mem_of_getElem? hh.1)

/-- Every catalog entry has a frame size above 0 (R50). -/
theorem n_pos_of_configured {s : State} (h : s.configured = true) : 0 < s.n := by
  obtain ⟨t, ht⟩ := (configured_iff s).1 h
  rw [n_of_configuredFor ht]
  exact Nat.lt_of_lt_of_le (by decide) t.size_bounds.1

/-- With PRE[0] at the head of a full buffer, the next operation is DETECT or HSLIDE (R67). -/
theorem enabledOp_of_pre0_at_head {s : State} (hst : s.st = .searching) (hfull : s.n ≤ s.len)
    (h0 : s.bufByte 0 = some s.cfg.pre0) : s.enabledOp = some .detect ∨ s.enabledOp = some .hslide := by
  have hfind : s.findPreamble = some 0 := (findPreamble_eq_some_iff s 0).2 ((firstPreambleAt_zero_iff s).2 h0)
  cases hm : s.hdrMatch with
  | true => exact .inl (by simp [State.enabledOp, hst, hfull, hm])
  | false => exact .inr (by simp [State.enabledOp, hst, hfull, hm, hfind])

/-! ### The operations -/

/-- A guarded operation in a state inside the specification: its result where `P`, the meaning of its guard, holds, and no
step elsewhere (R99). -/
theorem guarded_follows {s : State} {op : Op} {g : Bool} {r : Result} {P : Prop} (hs : s.InSpec) (hg : g = true ↔ P) :
    (P → s.guarded op g r = r) ∧ (¬ P → s.guarded op g r = .refused (.noStep op)) :=
  ⟨fun hp => guarded_of (hg.2 hp) hs.1 hs.2, fun hp => guarded_of_not (Bool.eq_false_of_not_eq_true (mt hg.1 hp))⟩

/-- The state after a discard, written out (R73, R144): the loss is reported only where LOST was 0. -/
theorem takeSyncLoss_of_discard {s : State} {r : Reason} (hst : s.st = .searching) (hr : r ≠ .checksumMismatch)
    (len k : Nat) (c x : Half) :
    s.takeSyncLoss r len c x k = { s with
      buf := s.buf.drop k, base := s.base + BitVec.ofNat 64 k, lost := true
      evq := if s.lost then s.evq else s.evq ++ [.syncLoss r s.base (BitVec.ofNat 9 len) c x]
      pending := if s.lost then s.pending else some (.syncLoss r s.base (BitVec.ofNat 9 len) c x) } := by
  have hrep : ∀ lost, r.reported lost = !lost := by
    cases r with
    | checksumMismatch => exact absurd rfl hr
    | noPreamble | skipped | headerMismatch => exact fun _ => rfl
  cases hl : s.lost <;>
    simp [State.takeSyncLoss, State.raiseSyncLoss, State.emit, State.dropFront, hrep, hl, hst]

/-- After a sync loss the block is idle exactly when less than a frame is left (R14, R144). -/
theorem idle_takeSyncLoss_iff (s : State) (r : Reason) (len : Nat) (c x : Half) (k : Nat) :
    (s.takeSyncLoss r len c x k).idle = true ↔ s.len - k < s.n := by
  simp [idle_iff, State.n]

/-- After a sync loss the head of the buffer is the byte that stood at the discarded length (R33, R144). -/
theorem bufByte_zero_takeSyncLoss (s : State) (r : Reason) (len : Nat) (c x : Half) (k : Nat) :
    (s.takeSyncLoss r len c x k).bufByte 0 = s.bufByte k := by
  simp [State.bufByte]

theorem opDetect_follows {s : State} (hs : s.InSpec) :
    (s.st = .searching ∧ s.n ≤ s.len ∧ s.headerStands → opDetect s = .next { s with st := .candidate }) ∧
    (¬ (s.st = .searching ∧ s.n ≤ s.len ∧ s.headerStands) → opDetect s = .refused (.noStep .detect)) :=
  guarded_follows hs (by rw [Bool.and_eq_true, fullSearch_iff, hdrMatch_iff_headerStands, and_assoc])

theorem opFlush_follows {s : State} (hs : s.InSpec) :
    (s.st = .searching ∧ s.n ≤ s.len ∧ ¬ s.headerStands ∧ s.cfg.pre0 ∉ s.buf →
      opFlush s = .next (s.takeSyncLoss .noPreamble s.len 0 0 s.len)) ∧
    (¬ (s.st = .searching ∧ s.n ≤ s.len ∧ ¬ s.headerStands ∧ s.cfg.pre0 ∉ s.buf) →
      opFlush s = .refused (.noStep .flush)) :=
  guarded_follows hs (by
    rw [Bool.and_eq_true, Bool.and_eq_true, fullSearch_iff, Bool.not_eq_true', hdrMatch_eq_false_iff, beq_iff_eq,
      findPreamble_eq_none_iff, and_assoc, and_assoc])

theorem opHslide_follows {s : State} (hs : s.InSpec) :
    (s.st = .searching ∧ s.n ≤ s.len ∧ ¬ s.headerStands ∧ s.bufByte 0 = some s.cfg.pre0 →
      opHslide s = .next (s.takeSyncLoss .headerMismatch 1 0 0 1)) ∧
    (¬ (s.st = .searching ∧ s.n ≤ s.len ∧ ¬ s.headerStands ∧ s.bufByte 0 = some s.cfg.pre0) →
      opHslide s = .refused (.noStep .hslide)) :=
  guarded_follows hs (by
    rw [Bool.and_eq_true, Bool.and_eq_true, fullSearch_iff, Bool.not_eq_true', hdrMatch_eq_false_iff, beq_iff_eq,
      findPreamble_eq_some_iff, firstPreambleAt_zero_iff, and_assoc, and_assoc])

/-- SKIP in a buffer whose first PRE[0] byte stands above the head (R71). -/
theorem opSkip_follows {s : State} {k : Nat} (hs : s.InSpec) (hpos : 0 < k) (hk : s.firstPreambleAt k) :
    (s.st = .searching ∧ s.n ≤ s.len ∧ ¬ s.headerStands → opSkip s = .next (s.takeSyncLoss .skipped k 0 0 k)) ∧
    (¬ (s.st = .searching ∧ s.n ≤ s.len ∧ ¬ s.headerStands) → opSkip s = .refused (.noStep .skip)) := by
  obtain ⟨m, rfl⟩ := Nat.exists_eq_succ_of_ne_zero hpos.ne'
  simp only [opSkip, (findPreamble_eq_some_iff s _).2 hk]
  exact guarded_follows hs (by
    rw [Bool.and_eq_true, fullSearch_iff, Bool.not_eq_true', hdrMatch_eq_false_iff, and_assoc])

/-- SKIP has no step without a PRE[0] byte above a head that is none (R71). -/
theorem opSkip_of_no_later_preamble {s : State} (h : ¬ ∃ k, 0 < k ∧ s.firstPreambleAt k) :
    opSkip s = .refused (.noStep .skip) := by
  unfold opSkip
  split
  next k hk => exact absurd ⟨k + 1, k.succ_pos, (findPreamble_eq_some_iff s _).1 hk⟩ h
  next => rfl

end Machine

/-- Settles O15: the guard of DETECT, read byte by byte; its effect is on ST alone, which makes CHECK the next operation. -/
theorem detectFollowsItsRule : Obligations.DetectFollowsItsRule := by
  intro s hs
  obtain ⟨hstep, hnone⟩ := Machine.opDetect_follows hs
  exact ⟨fun hg => ⟨hstep hg, rfl⟩, hnone⟩

/-- Settles O16: a buffer without PRE[0] has no header at its head, and discarding all of it leaves less than a frame. -/
theorem flushFollowsItsRule : Obligations.FlushFollowsItsRule := by
  intro s hs
  obtain ⟨hstep, hnone⟩ := Machine.opFlush_follows hs
  refine ⟨?_, hnone⟩
  rintro ⟨hst, hfull, hpre⟩ loss t
  have hno := Machine.not_headerStands_of_pre0_not_mem hpre
  have ht : s.takeSyncLoss .noPreamble s.len 0 0 s.len = t := by
    rw [Machine.takeSyncLoss_of_discard hst (by decide), show s.buf.drop s.len = [] from List.drop_length]
  refine ⟨hno, ht ▸ hstep ⟨hst, hfull, hno, hpre⟩, ht ▸ (Machine.idle_takeSyncLoss_iff ..).2 ?_⟩
  rw [Nat.sub_self]
  exact Machine.n_pos_of_configured hs.1

/-- Settles O17: the discard brings the first PRE[0] byte to the head, so the block is idle or goes on with DETECT or
HSLIDE. -/
theorem skipFollowsItsRule : Obligations.SkipFollowsItsRule := by
  intro s hs
  refine ⟨?_, fun hg => ?_⟩
  · intro k hst hfull hno hpos hk loss t
    have ht : s.takeSyncLoss .skipped k 0 0 k = t := Machine.takeSyncLoss_of_discard hst (by decide) ..
    have hhead : t.bufByte 0 = some s.cfg.pre0 := ht ▸ (Machine.bufByte_zero_takeSyncLoss ..).trans hk.1
    have hlen : t.len = s.len - k := ht ▸ Machine.State.len_takeSyncLoss ..
    refine ⟨ht ▸ (Machine.opSkip_follows hs hpos hk).1 ⟨hst, hfull, hno⟩, hhead,
      List.length_pos_of_mem (List.mem_of_getElem? hhead), fun hlt => ?_, fun hge => ?_⟩
    · exact ht ▸ (Machine.idle_takeSyncLoss_iff ..).2 hlt
    · exact Machine.enabledOp_of_pre0_at_head hst (hlen ▸ hge) hhead
  · by_cases hex : ∃ k, 0 < k ∧ s.firstPreambleAt k
    · obtain ⟨k, hpos, hk⟩ := hex
      exact (Machine.opSkip_follows hs hpos hk).2 fun ⟨hst, hfull, hno⟩ => hg ⟨hst, hfull, hno, k, hpos, hk⟩
    · exact Machine.opSkip_of_no_later_preamble hex

/-- Settles O18: HSLIDE is the discard of one byte, guarded by PRE[0] at the head of a buffer whose header does not match. -/
theorem hslideFollowsItsRule : Obligations.HslideFollowsItsRule := by
  intro s hs
  obtain ⟨hstep, hnone⟩ := Machine.opHslide_follows hs
  refine ⟨fun hg => (hstep hg).trans ?_, hnone⟩
  rw [Machine.takeSyncLoss_of_discard hg.1 (by decide)]
  rfl

end Sys2Proof
end

section
/-! PROOF. The Validator (42_validator.md R77, R78, R80, R81): what CHECK reads of the frame at the head of the buffer, and
the guards and effects of CHECK and ACCEPT. -/

namespace Sys2Proof

/-- `be16(h, l)` as the 16-bit word of the number 256 h + l (R78). -/
theorem be16_eq_ofNat (h l : Byte) : be16 h l = BitVec.ofNat 16 (256 * h.toNat + l.toNat) := by
  rw [← be16_toNat, BitVec.ofNat_toNat, BitVec.setWidth_eq]

theorem FrameType.spanLo_of_sp {t : FrameType} (r : RefSpanLo) (h : t.family = .sp) : t.spanLo r = 2 := by
  rw [FrameType.spanLo, h]

theorem FrameType.spanLo_of_ref {t : FrameType} (r : RefSpanLo) (h : t.family = .ref) : t.spanLo r = r.offset := by
  rw [FrameType.spanLo, h]

/-- SPAN_LO is 2 for SP and one of 2, 4 and 6 for REF (R17, D9). -/
theorem FrameType.spanLo_toNat_le (t : FrameType) (r : RefSpanLo) : (t.spanLo r).toNat ≤ 6 := by
  cases h : t.family with
  | sp =>
    rw [FrameType.spanLo_of_sp r h]
    decide
  | ref =>
    rw [FrameType.spanLo_of_ref r h]
    cases r <;> decide

namespace Machine

/-! ### What CHECK reads -/

theorem spanLo_of_configuredFor {s : State} {t : FrameType} (h : s.configuredFor t = true) :
    s.cfg.spanLo = t.spanLo s.refSpanLo := by
  rw [((configuredFor_iff s t).1 h).2]
  rfl

/-- The covered bytes begin below the checksum field (R77). -/
theorem spanLo_le_n_sub_two {s : State} (h : s.configured = true) : s.cfg.spanLo.toNat ≤ s.n - 2 := by
  obtain ⟨t, ht⟩ := (configured_iff s).1 h
  rw [spanLo_of_configuredFor ht, n_of_configuredFor ht]
  have hlo := t.spanLo_toNat_le s.refSpanLo
  have hsize := t.size_bounds.1
  omega

/-- In the short-preamble family SPAN_LO is 2 (R17, R77). -/
theorem spanLo_of_fam_sp {s : State} (h : s.configured = true) (hsp : s.cfg.fam = .sp) : s.cfg.spanLo = 2 := by
  obtain ⟨t, ht⟩ := (configured_iff s).1 h
  have hfam : t.family = .sp := (lookup_family ((configuredFor_iff s t).1 ht).1).trans hsp
  rw [spanLo_of_configuredFor ht, FrameType.spanLo_of_sp _ hfam]

/-- Where the bytes up to the checksum field are buffered, the covered bytes are BUF[SPAN_LO..N-3] (R77). -/
theorem span_eq_some {s : State} (h : s.configured = true) (hlen : s.n - 2 ≤ s.len) :
    s.span = some ((s.buf.take (s.n - 2)).drop s.cfg.spanLo.toNat) := by
  have hlo := spanLo_le_n_sub_two h
  rw [State.span, State.memRead, if_pos (by omega), List.drop_take]

/-- RX is 256 BUF[N-2] + BUF[N-1] (R78). -/
theorem checksumField_eq_some {s : State} {h l : Byte} (hh : s.bufByte (s.n - 2) = some h)
    (hl : s.bufByte (s.n - 1) = some l) : s.checksumField = some (be16 h l) := by
  rw [State.checksumField, hh, hl]

/-- A byte that holds a value stands below LEN (R18). -/
theorem lt_len_of_bufByte {s : State} {i : Nat} {b : Byte} (h : s.bufByte i = some b) : i < s.len :=
  (List.getElem?_eq_some_iff.1 h).1

/-- The checksum that FAM selects, with the start of its span written out for SP (R77). -/
theorem familyChecksum_drop_spanLo {s : State} (h : s.configured = true) (bs : List Byte) :
    familyChecksum s.cfg.fam (bs.drop s.cfg.spanLo.toNat) =
      if s.cfg.fam = .sp then crc16 (bs.drop 2) else sum16 (bs.drop s.cfg.spanLo.toNat) := by
  cases hf : s.cfg.fam with
  | sp =>
    rw [spanLo_of_fam_sp h hf]
    rfl
  | ref => rfl

/-! ### The operations -/

/-- CHECK on a buffered candidate (R80). -/
theorem opCheck_of_candidate {s : State} {h l : Byte} (hs : s.InSpec) (hst : s.st = .candidate)
    (hh : s.bufByte (s.n - 2) = some h) (hl : s.bufByte (s.n - 1) = some l) :
    opCheck s = .next { s with
      calcReg := familyChecksum s.cfg.fam ((s.buf.take (s.n - 2)).drop s.cfg.spanLo.toNat)
      rxReg := be16 h l, st := .validating } := by
  rw [opCheck, guarded_of (beq_iff_eq.2 hst) hs.1 hs.2, span_eq_some hs.1 (lt_len_of_bufByte hh).le,
    checksumField_eq_some hh hl]

/-- CHECK has no step outside CANDIDATE (R80). -/
theorem opCheck_of_not_candidate {s : State} (hst : s.st ≠ .candidate) : opCheck s = .refused (.noStep .check) :=
  guarded_of_not (beq_eq_false_iff_ne.2 hst)

theorem checksumEqual_iff (s : State) : s.checksumEqual = true ↔ s.calcReg = s.rxReg := beq_iff_eq

theorem opAccept_follows {s : State} (hs : s.InSpec) :
    (s.st = .validating ∧ s.calcReg = s.rxReg → opAccept s = .next { s with st := .emitting }) ∧
    (¬ (s.st = .validating ∧ s.calcReg = s.rxReg) → opAccept s = .refused (.noStep .accept)) :=
  guarded_follows hs (by rw [Bool.and_eq_true, beq_iff_eq, checksumEqual_iff])

end Machine

/-- Settles O19: with the checksum field buffered, CHECK reads BUF[SPAN_LO..N-1] and no byte after it, and SPAN_LO is 2
for SP. -/
theorem checkFollowsItsRule : Obligations.CheckFollowsItsRule := by
  intro s hs
  refine ⟨fun h l hst hh hl => ?_, Machine.opCheck_of_not_candidate⟩
  rw [Machine.opCheck_of_candidate hs hst hh hl, Machine.familyChecksum_drop_spanLo hs.1, be16_eq_ofNat]

/-- Settles O20: the guard of ACCEPT is the equal verdict in VALIDATING; its effect is on ST alone, which makes EMIT the
next operation. -/
theorem acceptFollowsItsRule : Obligations.AcceptFollowsItsRule := by
  intro s hs
  obtain ⟨hstep, hnone⟩ := Machine.opAccept_follows hs
  exact ⟨fun hg => ⟨hstep hg, rfl⟩, hnone⟩

end Sys2Proof
end


section
/-! PROOF. The payload extractor (43_payload_extractor.md R93, R94): P is N - 6, so the payload is BUF[4..N-3] and lies
inside a buffered frame; the guard and the effect of EMIT. -/

namespace Sys2Proof

namespace Machine

/-- P is N - 6: a frame without its four header bytes and its two checksum bytes (R17, R94). -/
theorem p_of_configured {s : State} (h : s.configured = true) : s.cfg.p.toNat = s.n - 6 := by
  obtain ⟨t, ht⟩ := (configured_iff s).1 h
  have hsize := t.size_bounds.2
  rw [n_of_configuredFor ht, ((configuredFor_iff s t).1 ht).2]
  exact Nat.mod_eq_of_lt (by omega)

/-- A frame holds at least its header and its checksum field (R50). -/
theorem six_le_n_of_configured {s : State} (h : s.configured = true) : 6 ≤ s.n := by
  obtain ⟨t, ht⟩ := (configured_iff s).1 h
  rw [n_of_configuredFor ht]
  exact Nat.le_trans (by decide) t.size_bounds.1

/-- Where the bytes up to the checksum field are buffered, the payload is BUF[4..N-3] (R94). -/
theorem payload_eq_some {s : State} (h : s.configured = true) (hlen : s.n - 2 ≤ s.len) :
    s.payload = some ((s.buf.take (s.n - 2)).drop 4) := by
  have hn := six_le_n_of_configured h
  rw [State.payload, State.memRead, p_of_configured h, if_pos (by omega), List.drop_take, Nat.sub_sub]

/-- EMIT on a buffered frame (R93, R145). -/
theorem opEmit_of_emitting {s : State} (hs : s.InSpec) (hfull : s.n ≤ s.len) (hst : s.st = .emitting) :
    opEmit s = .next ((s.emit (.frame s.cfg.idx s.base ((s.buf.take (s.n - 2)).drop 4) s.rxReg)).endEpisode s.n) := by
  have hpayload := payload_eq_some hs.1 ((Nat.sub_le s.n 2).trans hfull)
  simp only [opEmit, guarded_of (beq_iff_eq.2 hst) hs.1 hs.2, hpayload, if_pos hfull]

/-- EMIT has no step outside EMITTING (R93). -/
theorem opEmit_of_not_emitting {s : State} (hst : s.st ≠ .emitting) : opEmit s = .refused (.noStep .emit) :=
  guarded_of_not (beq_eq_false_iff_ne.2 hst)

/-- After an episode's end the block is idle exactly when less than a frame is left (R14, R145). -/
theorem idle_endEpisode_iff (s : State) (k : Nat) : (s.endEpisode k).idle = true ↔ s.len - k < s.n := by
  rw [idle_iff, State.len_endEpisode]
  exact and_iff_right rfl

end Machine

/-- Settles O22: the buffered frame gives EMIT its payload, and with nothing buffered behind the frame the buffer is left
empty, which is idle. -/
theorem emitFollowsItsRule : Obligations.EmitFollowsItsRule := by
  intro s hs hfull
  refine ⟨?_, Machine.opEmit_of_not_emitting⟩
  intro hst frame t
  refine ⟨Machine.opEmit_of_emitting hs hfull hst, fun hlen => ⟨List.drop_eq_nil_of_le hlen.le, ?_⟩⟩
  refine (Machine.idle_endEpisode_iff (s.emit frame) s.n).2 ?_
  rw [Machine.State.len_emit, hlen, Nat.sub_self]
  exact Machine.n_pos_of_configured hs.1

end Sys2Proof
end

section
/-! PROOF. RESET (44_packet_stream.md R100): what it loads and clears, and its precedence over every other step. -/

namespace Sys2Proof

/-- What RESET loads for an entry, with the constants of its family written out (R17, R100). -/
theorem FrameType.definition_eq (t : FrameType) (key : Half) (r : RefSpanLo) :
    t.definition key r = {
      fam := t.family, key := key, idx := t.idx, n := BitVec.ofNat 8 t.size
      pre0 := if t.family = .sp then 0x55 else 0xAF, pre1 := if t.family = .sp then 0x55 else 0x20
      mark0 := hiByte t.marker, mark1 := loByte t.marker
      spanLo := if t.family = .sp then 2 else r.offset, p := BitVec.ofNat 8 (t.size - 6) } := by
  cases hf : t.family with
  | sp =>
    rw [FrameType.definition, FrameType.spanLo_of_sp r hf, hf]
    rfl
  | ref =>
    rw [FrameType.definition, FrameType.spanLo_of_ref r hf, hf]
    rfl

namespace Machine

/-- RESET with a supported key (R100). -/
theorem opReset_of_lookup_some {fam : Family} {key : Half} {t : FrameType} (h : lookup fam key = some t) (s : State) :
    opReset fam key s = { s.cleared with cfg := t.definition key s.refSpanLo, st := .searching } := by
  rw [opReset, h]

/-- RESET with an unsupported key (R100, R101). -/
theorem opReset_of_lookup_none {fam : Family} {key : Half} (h : lookup fam key = none) (s : State) :
    opReset fam key s =
      { s.cleared with cfg := undefinedDefinition fam key s.draws, st := .cfgFailed, draws := s.draws + 1 } := by
  rw [opReset, h]

/-- A RESET presented is performed in every state, before a frame at the head, the sink and the internal operations
(R99, R100). -/
theorem step_of_reset_presented {s : State} {fam : Family} {key : Half} {later : List Request}
    (h : s.requests = .reset fam key :: later) : step s = .next (opReset fam key { s with requests := later }) := by
  have hpresented : s.resetPresented = true := by rw [State.resetPresented, h]
  have hfetch : s.fetch = none := by simp [State.fetch, hpresented]
  simp only [step, hfetch, operate, h]

end Machine

/-- Settles O25: RESET by the two answers of the key lookup, and its precedence over every other step. -/
theorem resetFollowsItsRule : Obligations.ResetFollowsItsRule := by
  intro fam key s
  refine ⟨fun t ht => ?_, fun hnone => ?_, fun later => Machine.step_of_reset_presented⟩
  · rw [Machine.opReset_of_lookup_some ht, FrameType.definition_eq, lookup_family ht]
    rfl
  · rw [Machine.opReset_of_lookup_none hnone]
    exact ⟨rfl, rfl, rfl, rfl, rfl, rfl, rfl, rfl, rfl, rfl⟩

end Sys2Proof
end

section
/-! PROOF. The macro step PUSH* (44_packet_stream.md R105): runs of enabled internal operations by name, the one run that a
buffer of exactly N bytes starts, and the six sequences. -/

namespace Sys2Proof

namespace Machine

/-! ### Runs of internal operations -/

/-- The internal operations `ops`, each the enabled one, lead in order from a state to another. -/
inductive InternalRun : State → List Op → State → Prop where
  | nil (s : State) : InternalRun s [] s
  | cons {s t u : State} {op : Op} {ops : List Op} (enabled : s.enabledOp = some op) (first : internal s = .next t)
      (rest : InternalRun t ops u) : InternalRun s (op :: ops) u

/-- A block with an enabled internal operation is busy (R104). -/
theorem busy_of_enabledOp {s : State} {op : Op} (h : s.enabledOp = some op) : s.busy = true := by
  cases hst : s.st with
  | searching =>
    have hfull : s.n ≤ s.len := by
      by_contra hlt
      simp [State.enabledOp, hst, hlt] at h
    simp [State.busy, hst, St.running, idle_eq_false_of_n_le_len hfull]
  | candidate | validating | emitting => simp [State.busy, State.idle, hst, St.running]
  | streamClosed | cfgFailed | unreset => simp [State.enabledOp, hst] at h

/-- An idle block is not busy (R14, R104). -/
theorem busy_eq_false_of_idle {s : State} (h : s.idle = true) : s.busy = false := by
  simp [State.busy, h]

/-- An idle block has no enabled internal operation (R104). -/
theorem enabledOp_eq_none_of_idle {s : State} (h : s.idle = true) : s.enabledOp = none := by
  rw [Option.eq_none_iff_forall_ne_some]
  intro op hop
  simpa [busy_eq_false_of_idle h] using busy_of_enabledOp hop

/-- The internal step is the operation of the enabled name, whatever byte PUSH would take (R99, R106). -/
theorem internal_eq_perform {s : State} {op : Op} (b : Byte) (h : s.enabledOp = some op) :
    internal s = perform b op s := by
  cases hst : s.st with
  | searching =>
    by_cases hfull : s.n ≤ s.len
    · cases hm : s.hdrMatch with
      | true =>
        simp only [State.enabledOp, hst, if_pos hfull, hm] at h
        cases h
        simp [internal, synchronize, perform, hst, hfull, hm]
      | false =>
        rcases hf : s.findPreamble with _ | _ | k <;>
        · simp only [State.enabledOp, hst, if_pos hfull, hm, hf] at h
          cases h
          simp [internal, synchronize, discard, perform, hst, hfull, hm, hf]
    · simp [State.enabledOp, hst, hfull] at h
  | validating =>
    cases hc : s.checksumEqual <;>
    · simp only [State.enabledOp, hst, hc] at h
      cases h
      simp [internal, judge, perform, hst, hc]
  | candidate | emitting =>
    simp only [State.enabledOp, hst] at h
    cases h
    simp only [internal, perform, hst]
  | streamClosed | cfgFailed | unreset => simp [State.enabledOp, hst] at h

namespace InternalRun

/-- The trace of a run that ends idle is the run's operations. -/
theorem opTrace_eq {s t : State} {ops : List Op} (h : InternalRun s ops t) (ht : t.idle = true) {k : Nat}
    (hk : ops.length ≤ k) : opTrace k s = ops := by
  induction h generalizing k with
  | nil s =>
    cases k with
    | zero => rfl
    | succ k => rw [opTrace, enabledOp_eq_none_of_idle ht]
  | cons enabled first _ ih =>
    cases k with
    | zero => simp at hk
    | succ k => simp [opTrace, enabled, first, ih ht (Nat.le_of_succ_le_succ hk)]

/-- Draining follows a run that ends idle to its end (R104). -/
theorem drain_eq {s t : State} {ops : List Op} (h : InternalRun s ops t) (ht : t.idle = true) {k : Nat}
    (hk : ops.length ≤ k) : drain k s = .next t := by
  induction h generalizing k with
  | nil s =>
    cases k with
    | zero => rfl
    | succ k => simp [drain, busy_eq_false_of_idle ht]
  | cons enabled first _ ih =>
    cases k with
    | zero => simp at hk
    | succ k => simp [drain, busy_of_enabledOp enabled, first, ih ht (Nat.le_of_succ_le_succ hk)]

/-- A run begun by the operation of the enabled name. -/
theorem of_perform {s t u : State} {op : Op} {ops : List Op} (b : Byte) (he : s.enabledOp = some op)
    (hp : perform b op s = .next t) (hr : InternalRun t ops u) : InternalRun s (op :: ops) u :=
  cons he ((internal_eq_perform b he).trans hp) hr

end InternalRun

/-! ### The run that a whole frame's bytes start -/

theorem enabledOp_of_headerStands {s : State} (hst : s.st = .searching) (hfull : s.n ≤ s.len) (hh : s.headerStands) :
    s.enabledOp = some .detect := by
  simp [State.enabledOp, hst, hfull, (hdrMatch_iff_headerStands s).2 hh]

theorem enabledOp_of_pre0_not_mem {s : State} (hst : s.st = .searching) (hfull : s.n ≤ s.len)
    (hh : ¬ s.headerStands) (hp : s.cfg.pre0 ∉ s.buf) : s.enabledOp = some .flush := by
  simp [State.enabledOp, hst, hfull, (hdrMatch_eq_false_iff s).2 hh, (findPreamble_eq_none_iff s).2 hp]

theorem enabledOp_of_firstPreambleAt {s : State} {k : Nat} (hst : s.st = .searching) (hfull : s.n ≤ s.len)
    (hh : ¬ s.headerStands) (hk : s.firstPreambleAt k) : s.enabledOp = some (if k = 0 then .hslide else .skip) := by
  have hm := (hdrMatch_eq_false_iff s).2 hh
  have hf := (findPreamble_eq_some_iff s k).2 hk
  cases k <;> simp [State.enabledOp, hst, hfull, hm, hf]

/-- Without a PRE[0] byte the run is FLUSH (R70). -/
theorem internalRun_flush {s : State} (hs : s.InSpec) (hst : s.st = .searching) (hfull : s.n ≤ s.len)
    (hh : ¬ s.headerStands) (hp : s.cfg.pre0 ∉ s.buf) :
    InternalRun s [.flush] (s.takeSyncLoss .noPreamble s.len 0 0 s.len) :=
  .of_perform 0 (enabledOp_of_pre0_not_mem hst hfull hh hp) ((opFlush_follows hs).1 ⟨hst, hfull, hh, hp⟩) (.nil _)

/-- With the first PRE[0] byte above the head the run begins with SKIP (R71). -/
theorem internalRun_skip {s : State} {k : Nat} (hs : s.InSpec) (hst : s.st = .searching) (hfull : s.n ≤ s.len)
    (hh : ¬ s.headerStands) (hpos : 0 < k) (hk : s.firstPreambleAt k) :
    InternalRun s [.skip] (s.takeSyncLoss .skipped k 0 0 k) := by
  have he := enabledOp_of_firstPreambleAt hst hfull hh hk
  rw [if_neg hpos.ne'] at he
  exact .of_perform 0 he ((opSkip_follows hs hpos hk).1 ⟨hst, hfull, hh⟩) (.nil _)

/-- With PRE[0] at the head of a buffer whose header does not match the run begins with HSLIDE (R72). -/
theorem internalRun_hslide {s : State} (hs : s.InSpec) (hst : s.st = .searching) (hfull : s.n ≤ s.len)
    (hh : ¬ s.headerStands) (hk : s.firstPreambleAt 0) :
    InternalRun s [.hslide] (s.takeSyncLoss .headerMismatch 1 0 0 1) :=
  .of_perform 0 (enabledOp_of_firstPreambleAt hst hfull hh hk)
    ((opHslide_follows hs).1 ⟨hst, hfull, hh, (firstPreambleAt_zero_iff s).1 hk⟩) (.nil _)

/-- The head frame is valid exactly when its header stands and its checksum field holds the checksum of its span (R78). -/
theorem headValid_iff {s : State} {span : List Byte} {rx : Half} (hspan : s.span = some span)
    (hrx : s.checksumField = some rx) :
    s.headValid ↔ s.headerStands ∧ familyChecksum s.cfg.fam span = rx := by
  rw [State.headValid, hdrMatch_iff_headerStands]
  refine and_congr_right fun _ => ⟨?_, fun h => ⟨span, rx, hspan, hrx, h⟩⟩
  rintro ⟨span', rx', hspan', hrx', h⟩
  cases hspan.symm.trans hspan'
  cases hrx.symm.trans hrx'
  exact h

/-- With the header at the head of a full buffer the run begins with DETECT and CHECK, which leave CALC = RX exactly when
the head frame is valid (R69, R80). -/
theorem exists_internalRun_detect_check {s : State} (hs : s.InSpec) (hst : s.st = .searching) (hfull : s.n ≤ s.len)
    (hh : s.headerStands) :
    ∃ computed transmitted : Half, (s.headValid ↔ computed = transmitted) ∧ ∀ ops u,
      InternalRun { s with calcReg := computed, rxReg := transmitted, st := .validating } ops u →
        InternalRun s (.detect :: .check :: ops) u := by
  have hn := n_pos_of_configured hs.1
  have hhi : s.n - 2 < s.buf.length := lt_of_lt_of_le (by omega) hfull
  have hlo : s.n - 1 < s.buf.length := lt_of_lt_of_le (by omega) hfull
  have hspan := span_eq_some hs.1 hhi.le
  have hrx := checksumField_eq_some (List.getElem?_eq_getElem hhi) (List.getElem?_eq_getElem hlo)
  refine ⟨_, _, (headValid_iff hspan hrx).trans (and_iff_right hh), fun ops u hrun => ?_⟩
  have hcheck := opCheck_of_candidate (s := { s with st := .candidate }) hs rfl (List.getElem?_eq_getElem hhi)
    (List.getElem?_eq_getElem hlo)
  exact .of_perform 0 (enabledOp_of_headerStands hst hfull hh) ((opDetect_follows hs).1 ⟨hst, hfull, hh⟩)
    (.of_perform 0 rfl hcheck hrun)

/-- SLIDE on a rejected candidate (R82). -/
theorem opSlide_of_rejected {s : State} (hs : s.InSpec) (hst : s.st = .validating) (hne : s.calcReg ≠ s.rxReg)
    (hpos : 1 ≤ s.len) : opSlide s = .next (s.takeSyncLoss .checksumMismatch s.n s.calcReg s.rxReg 1) := by
  have hguard : (s.st == .validating && !s.checksumEqual) = true := by simp [hst, State.checksumEqual, hne]
  rw [opSlide, guarded_of hguard hs.1 hs.2, if_pos hpos]

/-- From an unequal verdict the run is SLIDE (R82). -/
theorem internalRun_slide {s : State} (hs : s.InSpec) (hst : s.st = .validating) (hne : s.calcReg ≠ s.rxReg)
    (hpos : 1 ≤ s.len) :
    InternalRun s [.slide] (s.takeSyncLoss .checksumMismatch s.n s.calcReg s.rxReg 1) := by
  have he : s.enabledOp = some .slide := by simp [State.enabledOp, hst, State.checksumEqual, hne]
  exact .of_perform 0 he (opSlide_of_rejected hs hst hne hpos) (.nil _)

/-- From an equal verdict the run is ACCEPT and EMIT, which consumes the frame and goes back to searching (R81, R93). -/
theorem internalRun_accept_emit {s : State} (hs : s.InSpec) (hst : s.st = .validating)
    (heq : s.calcReg = s.rxReg) (hfull : s.n ≤ s.len) :
    InternalRun s [.accept, .emit] (({ s with st := .emitting }.emit
      (.frame s.cfg.idx s.base ((s.buf.take (s.n - 2)).drop 4) s.rxReg)).endEpisode s.n) := by
  have he : s.enabledOp = some .accept := by simp [State.enabledOp, hst, State.checksumEqual, heq]
  have hemit := opEmit_of_emitting (s := { s with st := .emitting }) hs hfull rfl
  exact .of_perform 0 he ((opAccept_follows hs).1 ⟨hst, heq⟩) (.of_perform 0 rfl hemit (.nil _))

/-- A sync loss that leaves less than a frame leaves the block idle (R14, R144). -/
theorem takeSyncLoss_idle_and_len {s : State} {r : Reason} {len k m : Nat} {c x : Half} (hm : s.len - k = m)
    (hlt : m < s.n) : (s.takeSyncLoss r len c x k).idle = true ∧ (s.takeSyncLoss r len c x k).len = m := by
  rw [idle_takeSyncLoss_iff, State.len_takeSyncLoss, hm]
  exact ⟨hlt, rfl⟩

/-! ### The macro step -/

/-- The byte that PUSH appends to an idle block leaves it inside the specification (R34, R61). -/
theorem inSpec_append_of_idle {s : State} (b : Byte) (hc : s.configured = true) (hi : s.idle = true) :
    (s.append b).InSpec := by
  refine ⟨hc, ?_⟩
  have hlt := ((idle_iff s).1 hi).2
  change (s.append b).len ≤ 2 * s.n
  rw [State.len_append]
  omega

/-- From an idle state PUSH* is the push and a run of at most four operations to the next idle state (R105). -/
theorem pushStar_of_internalRun {s t : State} {ops : List Op} {b : Byte} (hc : s.configured = true)
    (hi : s.idle = true) (hr : InternalRun (s.append b) ops t) (hops : ops.length ≤ 4) (ht : t.idle = true) :
    pushStar b s = .next t ∧ opTrace 5 (s.append b) = ops := by
  refine ⟨?_, hr.opTrace_eq ht (hops.trans (by decide))⟩
  rw [pushStar, opPush_of_idle b hc hi, andThen_next, hr.drain_eq ht hops]

/-- A row of the table of R105 from its run. -/
theorem macroStep_row {s t : State} {ops : List Op} {b : Byte} {m : Nat} (hc : s.configured = true)
    (hi : s.idle = true) (hops : ops.length ≤ 4) (hr : InternalRun (s.append b) ops t)
    (ht : t.idle = true ∧ t.len = m) :
    opTrace 5 (s.append b) = ops ∧ ∃ u, pushStar b s = .next u ∧ u.idle = true ∧ u.len = m := by
  obtain ⟨hidle, hlen⟩ := ht
  obtain ⟨hpush, htrace⟩ := pushStar_of_internalRun hc hi hr hops hidle
  exact ⟨htrace, t, hpush, hidle, hlen⟩

end Machine

open Machine

/-- Settles O28: the byte that fills the frame starts the one run that the header, the verdict and the first PRE[0] byte
select, and each of the five runs ends with less than a frame in the buffer. -/
theorem macroStepIsOneOfSixSequences : Obligations.MacroStepIsOneOfSixSequences := by
  intro s b hinv hi
  obtain ⟨hst, -⟩ := (idle_iff s).1 hi
  obtain ⟨hcfg, -⟩ := hinv
  have hc : s.configured = true := hcfg (.inl (by rw [hst]; rfl))
  have hn : 0 < s.n := n_pos_of_configured hc
  have hs : (s.append b).InSpec := inSpec_append_of_idle b hc hi
  have hlen : (s.append b).len = s.len + 1 := State.len_append s b
  refine ⟨fun hlt => ?_, fun hfull hh hv => ?_, fun hfull hh hv => ?_, fun hfull hh hp => ?_,
    fun k hfull hh hpos hk => ?_, fun hfull hh hk => ?_⟩
  · exact pushStar_of_internalRun hc hi (.nil _) (by decide) ((idle_iff _).2 ⟨hst, hlen.trans_lt hlt⟩)
  all_goals have hn' : (s.append b).len = s.n := hlen.trans hfull
  · obtain ⟨computed, transmitted, hverdict, hrun⟩ := exists_internalRun_detect_check hs hst hn'.ge hh
    have hleft : (s.append b).len - s.n = 0 := Nat.sub_eq_zero_of_le hn'.le
    exact macroStep_row hc hi (by decide) (hrun _ _ (internalRun_accept_emit hs rfl (hverdict.1 hv) hn'.ge))
      ⟨(idle_endEpisode_iff _ _).2 (hleft.trans_lt hn), (State.len_endEpisode _ _).trans hleft⟩
  · obtain ⟨computed, transmitted, hverdict, hrun⟩ := exists_internalRun_detect_check hs hst hn'.ge hh
    exact macroStep_row hc hi (by decide)
      (hrun _ _ (internalRun_slide hs rfl (mt hverdict.2 hv) (hn.trans_eq hn'.symm)))
      (takeSyncLoss_idle_and_len (congrArg (· - 1) hn') (Nat.sub_lt hn Nat.one_pos))
  · exact macroStep_row hc hi (by decide) (internalRun_flush hs hst hn'.ge hh hp)
      (takeSyncLoss_idle_and_len (Nat.sub_self _) hn)
  · exact macroStep_row hc hi (by decide) (internalRun_skip hs hst hn'.ge hh hpos hk)
      (takeSyncLoss_idle_and_len (congrArg (· - k) hn') (Nat.sub_lt hn hpos))
  · exact macroStep_row hc hi (by decide) (internalRun_hslide hs hst hn'.ge hh hk)
      (takeSyncLoss_idle_and_len (congrArg (· - 1) hn') (Nat.sub_lt hn Nat.one_pos))

end Sys2Proof
end

section
/-! PROOF. The decoder and the catalog (30_encoding.md R45 to R51, R55, R59): a header word and a key each name at most one
catalog entry, so decoding and encoding are inverse and both lookups answer exactly the entry that is named. -/

namespace Sys2Proof

/-- Where at most one element of a list passes the test, `find?` answers exactly the element that does. -/
theorem find?_eq_some_iff_of_unique {α : Type} {p : α → Bool} {l : List α} {a : α}
    (unique : ∀ x ∈ l, ∀ y ∈ l, p x = true → p y = true → x = y) : l.find? p = some a ↔ a ∈ l ∧ p a = true := by
  refine ⟨fun h => ⟨List.mem_of_find?_eq_some h, List.find?_some h⟩, fun ⟨hmem, hp⟩ => ?_⟩
  cases hf : l.find? p with
  | none => exact absurd hp (List.find?_eq_none.1 hf a hmem)
  | some b => rw [unique b (List.mem_of_find?_eq_some hf) a hmem (List.find?_some hf) hp]

/-! ### The catalog -/

theorem FrameType.mem_all (t : FrameType) : t ∈ FrameType.all := by
  cases t <;> decide

/-- The match values of the catalog are pairwise different (R50). -/
theorem FrameType.headerMatch_injective : Function.Injective FrameType.headerMatch := fun t u h =>
  List.inj_on_of_nodup_map (l := FrameType.all) (by decide) t.mem_all u.mem_all h

/-- The markers of the catalog are pairwise different (R50). -/
theorem FrameType.marker_injective : Function.Injective FrameType.marker := fun t u h =>
  List.inj_on_of_nodup_map (l := FrameType.all) (by decide) t.mem_all u.mem_all h

theorem FrameType.header_injective : Function.Injective FrameType.header := fun _ _ h =>
  FrameType.headerMatch_injective ((be32_eq_headerMatch_iff.2 rfl).symm.trans (be32_eq_headerMatch_iff.2 h.symm))

/-- A frame is its header, its payload and its two checksum bytes (R45, R46). -/
theorem FrameType.payloadLen_add_six (t : FrameType) : t.payloadLen + 6 = t.size :=
  Nat.sub_add_cancel (Nat.le_trans (by decide) t.size_bounds.1)

/-- With FAM = 0 the lookup answers the SP entry whose marker is the key (R51). -/
theorem lookup_sp_eq_some_iff {key : Half} {t : FrameType} :
    lookup .sp key = some t ↔ t.family = .sp ∧ t.marker = key := by
  refine (find?_eq_some_iff_of_unique fun x _ y _ hx hy => ?_).trans ?_
  · simp only [Bool.and_eq_true, beq_iff_eq] at hx hy
    exact FrameType.marker_injective (hx.2.trans hy.2.symm)
  · simp [FrameType.mem_all]

/-! ### The decoder -/

/-- Four bytes name the catalog entry that has them as its header (R47, R59). -/
theorem ofHeader_eq_some_iff {b0 b1 b2 b3 : Byte} {t : FrameType} :
    FrameType.ofHeader b0 b1 b2 b3 = some t ↔ t.header = [b0, b1, b2, b3] := by
  refine (find?_eq_some_iff_of_unique fun x _ y _ hx hy => ?_).trans ?_
  · rw [beq_iff_eq] at hx hy
    exact FrameType.headerMatch_injective (hx.trans hy.symm)
  · rw [beq_iff_eq, eq_comm, be32_eq_headerMatch_iff]
    exact and_iff_right t.mem_all

/-- Four bytes name no entry exactly when their word is no match value of the catalog (R53). -/
theorem ofHeader_eq_none_iff {b0 b1 b2 b3 : Byte} :
    FrameType.ofHeader b0 b1 b2 b3 = none ↔ be32 b0 b1 b2 b3 ∉ FrameType.all.map FrameType.headerMatch := by
  simp [FrameType.ofHeader]

/-- The operands a body gives, and that nothing else does (R45, R46, R55). -/
theorem decodeBody_eq_ok_iff {t : FrameType} {body rest : List Byte} {i : Instr} :
    decodeBody t body = .ok (i, rest) ↔
      ∃ payload chk, payload.length = t.payloadLen ∧ i = t.instr payload chk ∧
        body = payload ++ hiByte chk :: loByte chk :: rest := by
  constructor
  · intro h
    unfold decodeBody at h
    split at h
    next hi lo rest' hdrop =>
      cases h
      refine ⟨body.take t.payloadLen, be16 hi lo, ?_, rfl, ?_⟩
      · have hlen := congrArg List.length hdrop
        simp only [List.length_drop, List.length_cons] at hlen
        rw [List.length_take]
        omega
      · rw [hiByte_be16, loByte_be16, ← hdrop, List.take_append_drop]
    next => cases h
  · rintro ⟨payload, chk, hlen, rfl, rfl⟩
    simp [decodeBody, ← hlen]

theorem decodeBody_ne_unknownHeader (t : FrameType) (body : List Byte) :
    decodeBody t body ≠ .error .unknownHeader := by
  unfold decodeBody
  split <;> simp

/-- The bytes that decode are a catalog header and a body of that type (R55). -/
theorem decode_eq_ok_iff {bs rest : List Byte} {i : Instr} :
    decode bs = .ok (i, rest) ↔ ∃ (t : FrameType) (body : List Byte), bs = t.header ++ body ∧
      decodeBody t body = .ok (i, rest) := by
  constructor
  · intro h
    unfold decode at h
    split at h
    next b0 b1 b2 b3 body =>
      split at h
      next t ht => exact ⟨t, body, by rw [ofHeader_eq_some_iff.1 ht]; rfl, h⟩
      next => cases h
    next => cases h
  · rintro ⟨t, body, rfl, h⟩
    have hof := ofHeader_eq_some_iff (t := t).2 rfl
    simp only [FrameType.header, List.cons_append, List.nil_append, decode, hof, h]

/-- What decodes is exactly the encoding of a well-formed frame and what follows it (R45, R46). -/
theorem decode_eq_ok_iff_encode {bs rest : List Byte} {i : Instr} :
    decode bs = .ok (i, rest) ↔ i.wf = true ∧ encode i ++ rest = bs := by
  rw [decode_eq_ok_iff, Instr.wf, beq_iff_eq]
  constructor
  · rintro ⟨t, body, rfl, h⟩
    obtain ⟨payload, chk, hlen, rfl, rfl⟩ := decodeBody_eq_ok_iff.1 h
    simp [encode, encodeFrame, hlen]
  · rintro ⟨hlen, rfl⟩
    refine ⟨i.type, _, List.append_assoc .., decodeBody_eq_ok_iff.2 ⟨i.payload, i.chk, hlen, ?_, ?_⟩⟩
    · exact i.instr_of_parts.symm
    · simp

/-- Settles O1: the encoding of a well-formed frame is a catalog header and a body of that type. -/
theorem decodeInvertsEncode : Obligations.DecodeInvertsEncode := fun _ _ hwf =>
  decode_eq_ok_iff_encode.2 ⟨hwf, rfl⟩

/-- Settles O2: the decoder drops no byte, and the payload it takes has the length of its type. -/
theorem encodeInvertsDecode : Obligations.EncodeInvertsDecode := fun _ _ _ h =>
  decode_eq_ok_iff_encode.1 h

/-- Settles O3: only the header decides `unknownHeader`, and the match values written out are the catalog's. -/
theorem unknownHeadersAreRejected : Obligations.UnknownHeadersAreRejected := by
  intro b0 b1 b2 b3 body
  refine Iff.trans ?_ ofHeader_eq_none_iff
  cases hof : FrameType.ofHeader b0 b1 b2 b3 with
  | none => simp [decode, hof]
  | some t => simpa [decode, hof] using decodeBody_ne_unknownHeader t body

/-- Settles O4: the five words stand in the table, and the sixth stands nowhere in it. -/
theorem tableWordsDecode : Obligations.TableWordsDecode := by
  unfold Obligations.TableWordsDecode
  decide +kernel

/-- Settles O5: every column of the catalog, row by row. -/
theorem catalogConstants : Obligations.CatalogConstants := by
  unfold Obligations.CatalogConstants
  rfl

/-- The 16 keys of the SP entries, with their types, in catalog order. -/
theorem mem_keyTable_iff {key : Half} {t : FrameType} :
    (key, t) ∈ (FrameType.all.filter (·.family == .sp)).map (fun u => (u.marker, u)) ↔ t.family = .sp ∧ t.marker = key := by
  simp [FrameType.mem_all]

/-- Settles O6: the lookup by the marker is the key table written out, and RESET fails exactly when it answers nothing. -/
theorem lookupSelectsByKey : Obligations.LookupSelectsByKey := by
  refine ⟨fun _ => rfl, fun key t => lookup_sp_eq_some_iff.trans mem_keyTable_iff.symm, fun key s => ?_⟩
  cases h : lookup .sp key with
  | none => simp [Machine.opReset_of_lookup_none h]
  | some t => simp [Machine.opReset_of_lookup_some h]

end Sys2Proof
end

section
/-! PROOF. The checksum functions (42_validator.md R84 to R87, 70_reset_and_hazards.md R159): the steps of crc16 are linear
and injective, each byte enters both registers injectively, and the dual sum loses a pair of top bits. -/

namespace Sys2Proof.Machine

/-! ### crc16 is linear -/

/-- One step as a shift and a mask that bit 15 selects (R84). -/
theorem crcBit_eq (c : Half) : crcBit c = c <<< 1 ^^^ if c.msb then 0x1021 else 0 := by
  cases h : c.msb <;> simp [crcBit, h]

theorem crcBit_xor (a b : Half) : crcBit (a ^^^ b) = crcBit a ^^^ crcBit b := by
  simp only [crcBit_eq, BitVec.shiftLeft_xor_distrib, BitVec.msb_xor]
  cases a.msb <;> cases b.msb <;> simp only [Bool.xor_false, Bool.xor_true, Bool.not_true, Bool.not_false,
    Bool.false_eq_true, if_true, if_false] <;> ac_nf
  simp

theorem crcSteps_xor (a b : Half) : crcSteps (a ^^^ b) = crcSteps a ^^^ crcSteps b := by
  simp only [crcSteps, crcBit_xor]

theorem crcSteps_zero : crcSteps 0 = 0 := by decide

/-- A byte placed in the high half of a word, over exclusive-or. -/
theorem byte_append_zero_xor (a b : Byte) : (a ^^^ b) ++ (0 : Byte) = (a ++ (0 : Byte)) ^^^ (b ++ (0 : Byte)) := by
  rw [BitVec.xor_append, BitVec.xor_self]
  rfl

theorem crcByte_xor (c c' : Half) (d d' : Byte) : crcByte (c ^^^ c') (d ^^^ d') = crcByte c d ^^^ crcByte c' d' := by
  rw [crcByte, crcByte, crcByte, ← crcSteps_xor, byte_append_zero_xor]
  ac_nf

/-- The register after the exclusive-or of two sequences is the exclusive-or of the registers (R86 (b)). -/
theorem crcFrom_zipWith_xor {s e : List Byte} (h : s.length = e.length) (c c' : Half) :
    crcFrom (c ^^^ c') (List.zipWith (· ^^^ ·) s e) = crcFrom c s ^^^ crcFrom c' e := by
  induction s generalizing c c' e with
  | nil =>
    obtain rfl := List.length_eq_zero_iff.1 h.symm
    rfl
  | cons d ds ih =>
    cases e with
    | nil => simp at h
    | cons x xs =>
      rw [List.zipWith_cons_cons, crcFrom_cons, crcFrom_cons, crcFrom_cons, crcByte_xor]
      exact ih (Nat.succ.inj h) _ _

/-- What an error pattern adds to the checksum, whatever the data are (R86 (b)). -/
theorem crc16_xor_crc16 {s e : List Byte} (h : s.length = e.length) :
    crc16 (List.zipWith (· ^^^ ·) s e) ^^^ crc16 s = crcFrom 0#16 e := by
  have hlin := crcFrom_zipWith_xor h 0x1D0F 0#16
  rw [BitVec.xor_zero] at hlin
  rw [crc16, crc16, hlin, BitVec.xor_comm, ← BitVec.xor_assoc, BitVec.xor_self, BitVec.zero_xor]

/-! ### The table form, and the residue -/

/-- A word is its high byte and its low byte. -/
theorem half_eq_hi_xor_lo (c : Half) : c = (hiByte c ++ (0 : Byte)) ^^^ ((0 : Byte) ++ loByte c) := by
  have hhalves : (hiByte c ++ 0#8) ^^^ (0#8 ++ loByte c) = be16 (hiByte c) (loByte c) := by
    rw [BitVec.xor_append, BitVec.xor_zero, BitVec.zero_xor]
    rfl
  exact (hhalves.trans (be16_hi_lo c)).symm

/-- Eight steps move a low byte to the high byte: bit 15 is never set on the way. -/
theorem crcSteps_lo (l : Byte) : crcSteps ((0 : Byte) ++ l) = l ++ (0 : Byte) := by
  revert l
  decide +kernel

theorem shiftLeft_eight_eq (c : Half) : c <<< 8 = loByte c ++ (0 : Byte) := by
  apply BitVec.eq_of_toNat_eq
  have happ : (loByte c ++ (0 : Byte)).toNat = 256 * (c.toNat % 256) + 0 := by
    rw [← loByte_toNat]
    exact be16_toNat (loByte c) 0
  rw [happ, BitVec.toNat_shiftLeft, Nat.shiftLeft_eq]
  omega

theorem crcByteByTable_eq (c : Half) (d : Byte) : crcByteByTable c d = crcByte c d := by
  have hsplit : c ^^^ (d ++ (0 : Byte)) = ((hiByte c ^^^ d) ++ (0 : Byte)) ^^^ ((0 : Byte) ++ loByte c) := by
    conv_lhs => rw [half_eq_hi_xor_lo c]
    rw [byte_append_zero_xor]
    ac_nf
  rw [crcByteByTable, crcTable, crcByte, hsplit, crcSteps_xor, crcSteps_lo, shiftLeft_eight_eq, BitVec.xor_comm]

/-- The register's own high byte leaves the low byte, moved up. -/
theorem crcByte_hiByte (c : Half) : crcByte c (hiByte c) = loByte c ++ (0 : Byte) := by
  have hlo : c ^^^ (hiByte c ++ (0 : Byte)) = (0 : Byte) ++ loByte c := by
    calc c ^^^ (hiByte c ++ (0 : Byte))
        = ((hiByte c ++ (0 : Byte)) ^^^ ((0 : Byte) ++ loByte c)) ^^^ (hiByte c ++ (0 : Byte)) := by
          rw [← half_eq_hi_xor_lo c]
      _ = (0 : Byte) ++ loByte c := by
          rw [BitVec.xor_comm, ← BitVec.xor_assoc, BitVec.xor_self, BitVec.zero_xor]
  rw [crcByte, hlo, crcSteps_lo]

/-! ### A single changed byte -/

/-- Only the register 0 steps to 0: the mask 0x1021 sets bit 0, which the shift leaves clear. -/
theorem eq_zero_of_crcBit_eq_zero {c : Half} (h : crcBit c = 0#16) : c = 0#16 := by
  rw [crcBit_eq, BitVec.xor_eq_zero_iff] at h
  have hshift := congrArg BitVec.toNat h
  rw [BitVec.toNat_shiftLeft, Nat.shiftLeft_eq] at hshift
  cases hm : c.msb with
  | true =>
    simp only [hm, if_true, BitVec.reduceToNat] at hshift
    omega
  | false =>
    simp only [hm, Bool.false_eq_true, if_false, BitVec.reduceToNat] at hshift
    have hlt := BitVec.msb_eq_false_iff_two_mul_lt.1 hm
    exact BitVec.eq_of_toNat_eq (show c.toNat = 0 by omega)

/-- One step loses no information, by linearity. -/
theorem crcBit_injective : Function.Injective crcBit := by
  intro a b h
  refine BitVec.xor_eq_zero_iff.1 (eq_zero_of_crcBit_eq_zero ?_)
  rw [crcBit_xor, h, BitVec.xor_self]

theorem crcSteps_injective : Function.Injective crcSteps := by
  intro a b h
  simp only [crcSteps, crcBit_injective.eq_iff] at h
  exact h

theorem crcByte_injective_left (d : Byte) : Function.Injective (crcByte · d) := fun _ _ h =>
  (BitVec.xor_left_inj _).1 (crcSteps_injective h)

theorem crcByte_injective_right (c : Half) : Function.Injective (crcByte c) := by
  intro d d' h
  have happ : d ++ (0 : Byte) = d' ++ (0 : Byte) := (BitVec.xor_right_inj c).1 (crcSteps_injective h)
  exact (bitVec_append_eq_append_iff.1 happ).1

/-- A fold that every element enters injectively, and that keeps registers apart, tells two lists apart that differ in one
place. -/
theorem foldl_set_ne {σ α : Type} {f : σ → α → σ} (hreg : ∀ d, Function.Injective (f · d))
    (helem : ∀ c, Function.Injective (f c)) {s : List α} {j : Nat} {d d' : α} (hj : s[j]? = some d) (hne : d' ≠ d)
    (c : σ) : (s.set j d').foldl f c ≠ s.foldl f c := by
  induction s generalizing c j with
  | nil => simp at hj
  | cons x xs ih =>
    cases j with
    | zero =>
      obtain rfl : x = d := by simpa using hj
      have hfold : Function.Injective fun c => xs.foldl f c := by
        clear ih hj
        induction xs with
        | nil => exact fun _ _ h => h
        | cons y ys ih => exact fun _ _ h => hreg y (ih h)
      exact fun h => hne (helem c (hfold h))
    | succ j => exact ih (by simpa using hj) (f c x)

/-- A flipped bit is a change of its byte. -/
theorem xor_twoPow_ne (d : Byte) {i : Nat} (hi : i < 8) : d ^^^ BitVec.twoPow 8 i ≠ d := by
  intro h
  have hbit := congrArg (BitVec.getLsbD · i) h
  simp [hi] at hbit

/-! ### The dual sum -/

/-- One byte enters the accumulators A and B (R85). -/
def sumByte (ab : Byte × Byte) (d : Byte) : Byte × Byte := (ab.1 + d, ab.2 + (ab.1 + d))

theorem sumFrom_eq_foldl (ab : Byte × Byte) (s : List Byte) :
    sumFrom ab.1 ab.2 s = be16 (s.foldl sumByte ab).1 (s.foldl sumByte ab).2 := by
  induction s generalizing ab with
  | nil => rfl
  | cons d ds ih =>
    rw [sumFrom_cons, List.foldl_cons]
    exact ih (sumByte ab d)

theorem sum16_eq_foldl (s : List Byte) :
    sum16 s = be16 (s.foldl sumByte (0, 0)).1 (s.foldl sumByte (0, 0)).2 :=
  sumFrom_eq_foldl (0, 0) s

/-- Equal dual sums are equal accumulators. -/
theorem sum16_eq_sum16_iff {s s' : List Byte} :
    sum16 s = sum16 s' ↔ s.foldl sumByte (0, 0) = s'.foldl sumByte (0, 0) := by
  rw [sum16_eq_foldl, sum16_eq_foldl, be16, be16, bitVec_append_eq_append_iff, Prod.ext_iff]

theorem sumByte_injective_left (d : Byte) : Function.Injective (sumByte · d) := by
  rintro ⟨a, b⟩ ⟨a', b'⟩ h
  obtain ⟨ha, hb⟩ := Prod.ext_iff.1 h
  simp only [sumByte, BitVec.add_left_inj] at ha hb
  subst ha
  rw [BitVec.add_left_inj] at hb
  rw [hb]

theorem sumByte_injective_right (ab : Byte × Byte) : Function.Injective (sumByte ab) := fun _ _ h =>
  (BitVec.add_right_inj _).1 (Prod.ext_iff.1 h).1

/-- An inverted top bit of A stays inverted, and inverts the top bit of B once for every byte (R159). -/
theorem foldl_sumByte_topBit (m : List Byte) (a b x : Byte) :
    m.foldl sumByte (a + 0x80, b + x) =
      ((m.foldl sumByte (a, b)).1 + 0x80,
        (m.foldl sumByte (a, b)).2 + (x + if m.length % 2 = 1 then 0x80 else 0#8)) := by
  induction m generalizing a b x with
  | nil => simp
  | cons d ds ih =>
    have hbyte : sumByte (a + 0x80, b + x) d = (a + d + 0x80, b + (a + d) + (x + 0x80)) := by
      simp only [sumByte, Prod.mk.injEq]
      constructor <;> ac_rfl
    have hparity : x + 0x80 + (if ds.length % 2 = 1 then 0x80 else 0#8) =
        x + if (d :: ds).length % 2 = 1 then 0x80 else 0#8 := by
      have htwice : (0x80 : Byte) + 0x80 = 0#8 := by decide
      rcases Nat.mod_two_eq_zero_or_one ds.length with h | h
      · rw [List.length_cons, if_neg (by omega), if_pos (by omega), BitVec.add_zero]
      · rw [List.length_cons, if_pos h, if_neg (by omega), BitVec.add_assoc, htwice]
    rw [List.foldl_cons, List.foldl_cons, hbyte, ih, hparity]
    rfl

/-- An inverted top bit is an addition of 80. -/
theorem xor_topBit (d : Byte) : d ^^^ 0x80 = d + 0x80 := by
  revert d
  decide

/-- Two inverted top bits with an odd number of bytes between them leave both accumulators as they were (R159). -/
theorem foldl_sumByte_pairedTopBits (ab : Byte × Byte) (d e : Byte) {m : List Byte} (hm : m.length % 2 = 1) :
    ((d ^^^ 0x80) :: (m ++ [e ^^^ 0x80])).foldl sumByte ab = (d :: (m ++ [e])).foldl sumByte ab := by
  have htwice : (0x80 : Byte) + 0x80 = 0#8 := by decide
  have hfirst : sumByte ab (d ^^^ 0x80) = (ab.1 + d + 0x80, ab.2 + (ab.1 + d) + 0x80) := by
    rw [xor_topBit, sumByte]
    simp only [BitVec.add_assoc]
  have hmiddle := foldl_sumByte_topBit m (ab.1 + d) (ab.2 + (ab.1 + d)) 0x80
  rw [if_pos hm, htwice, BitVec.add_zero] at hmiddle
  have hlast : ∀ r : Byte × Byte, sumByte (r.1 + 0x80, r.2) (e ^^^ 0x80) = sumByte r e := by
    intro r
    have hsum : r.1 + 0x80 + (e + 0x80) = r.1 + e + (0x80 + 0x80) := by ac_rfl
    rw [xor_topBit, sumByte, sumByte, hsum, htwice, BitVec.add_zero]
  rw [List.foldl_cons, List.foldl_cons, List.foldl_append, List.foldl_append, hfirst, hmiddle]
  exact hlast _

end Sys2Proof.Machine

namespace Sys2Proof

open Machine

/-- Settles O8: eight steps are linear, and on the low byte they are the shift. -/
theorem crc16ByTableIsCrc16 : Obligations.Crc16ByTableIsCrc16 := by
  intro s
  rw [crc16ByTable, crc16, crcFrom_eq_foldl, funext₂ crcByteByTable_eq]

/-- Settles O9: the high byte of the register cancels against itself, and then so does the low byte. -/
theorem crc16ResidueIsZero : Obligations.Crc16ResidueIsZero := by
  intro s
  have happ : crc16 (s ++ [hiByte (crc16 s), loByte (crc16 s)]) =
      crcByte (crcByte (crc16 s) (hiByte (crc16 s))) (loByte (crc16 s)) := by
    rw [crc16, crcFrom_append, crcFrom_cons, crcFrom_cons, crcFrom_nil]
    rfl
  rw [happ, crcByte_hiByte, crcByte, BitVec.xor_self]
  exact crcSteps_zero

/-- Settles O10: by linearity both changes are the register the pattern alone gives. -/
theorem crc16ErrorIsIndependentOfData : Obligations.Crc16ErrorIsIndependentOfData := fun _ _ _ h h' =>
  (crc16_xor_crc16 h).trans (crc16_xor_crc16 h').symm

/-- Settles O11: a byte enters the CRC register injectively, and the register keeps the difference. -/
theorem crc16DetectsEverySingleBit : Obligations.Crc16DetectsEverySingleBit := by
  intro s j i d hj hi
  rw [crc16, crc16, crcFrom_eq_foldl, crcFrom_eq_foldl]
  exact foldl_set_ne crcByte_injective_left crcByte_injective_right hj (xor_twoPow_ne d hi) _

/-- Settles O12: a byte enters the accumulators injectively, and they keep the difference. -/
theorem sum16DetectsEverySingleBit : Obligations.Sum16DetectsEverySingleBit := by
  intro s j i d hj hi h
  exact foldl_set_ne sumByte_injective_left sumByte_injective_right hj (xor_twoPow_ne d hi) _ (sum16_eq_sum16_iff.1 h)

/-- Settles O13: the accumulators are the same after the second of the two bytes. -/
theorem sum16MissesPairedTopBits : Obligations.Sum16MissesPairedTopBits := by
  intro a m z d e hm
  have hsplit : ∀ x y : Byte, a ++ x :: (m ++ y :: z) = a ++ ((x :: (m ++ [y])) ++ z) := by simp
  rw [sum16_eq_sum16_iff, hsplit, hsplit, List.foldl_append, List.foldl_append, List.foldl_append, List.foldl_append,
    foldl_sumByte_pairedTopBits _ d e hm]

/-- Settles O14: the values by evaluation. -/
theorem referenceChecksums : Obligations.ReferenceChecksums := by
  unfold Obligations.ReferenceChecksums
  decide +kernel

/-- Settles O39: the checksums of the 34 frames by evaluation. -/
theorem frameWorkedChecksums : Obligations.FrameWorkedChecksums := by
  unfold Obligations.FrameWorkedChecksums
  decide +kernel

end Sys2Proof
end

section
/-! PROOF. The transition table (44_packet_stream.md R99, R104, R106): an internal operation is guarded by being the enabled
one, and every internal operation consumes bytes from the head and emits at most one event. -/

namespace Sys2Proof.Machine

/-! ### Guards -/

/-- A guarded operation has no step exactly where its guard is false (R99). -/
theorem guarded_eq_refused_iff {s : State} {op : Op} {g : Bool} {r : Result} (hr : ∀ x, r ≠ .refused x) :
    s.guarded op g r = .refused (.noStep op) ↔ g = false := by
  refine ⟨fun h => ?_, guarded_of_not⟩
  unfold State.guarded at h
  split at h
  · split at h
    · split at h
      · exact absurd h (hr _)
      · cases h
    · cases h
  next hg => exact Bool.eq_false_of_not_eq_true hg

/-- The guards of the internal operations (R69 to R72, R80 to R82, R93), and idleness for PUSH and CLOSE. -/
def Op.guard (op : Op) (s : State) : Bool :=
  match op with
  | .push | .close => s.idle
  | .detect => s.fullSearch && s.hdrMatch
  | .flush => s.fullSearch && !s.hdrMatch && s.findPreamble == none
  | .skip => s.fullSearch && !s.hdrMatch && s.findPreamble.any (0 < ·)
  | .hslide => s.fullSearch && !s.hdrMatch && s.findPreamble == some 0
  | .check => s.st == .candidate
  | .accept => s.st == .validating && s.checksumEqual
  | .slide => s.st == .validating && !s.checksumEqual
  | .emit => s.st == .emitting

/-- An internal operation is the enabled one exactly where its guard holds (R99, R106). -/
theorem enabledOp_eq_some_iff {op : Op} (hpush : op ≠ .push) (hclose : op ≠ .close) (s : State) :
    s.enabledOp = some op ↔ op.guard s = true := by
  cases hst : s.st with
  | searching =>
    by_cases hfull : s.n ≤ s.len
    · have hsearch : s.fullSearch = true := (fullSearch_iff s).2 ⟨hst, hfull⟩
      cases hm : s.hdrMatch with
      | true => cases op <;> simp_all [State.enabledOp, Op.guard]
      | false => rcases hf : s.findPreamble with _ | _ | k <;> cases op <;> simp_all [State.enabledOp, Op.guard]
    · have hsearch : s.fullSearch = false := by simp [State.fullSearch, hfull]
      cases op <;> simp_all [State.enabledOp, Op.guard]
  | validating => cases hc : s.checksumEqual <;> cases op <;> simp_all [State.enabledOp, Op.guard, State.fullSearch]
  | candidate | emitting | streamClosed | cfgFailed | unreset =>
    cases op <;> simp_all [State.enabledOp, Op.guard, State.fullSearch]

/-- Every operation is guarded, and behind its guard it is never refused (R99). -/
theorem exists_perform_eq_guarded (b : Byte) (op : Op) (s : State) :
    ∃ r, (∀ x, r ≠ .refused x) ∧ perform b op s = s.guarded op (op.guard s) r := by
  cases op with
  | push | close | detect | flush | hslide | accept =>
    refine ⟨_, fun x h => ?_, rfl⟩
    cases h
  | check | slide | emit =>
    refine ⟨_, fun x h => ?_, rfl⟩
    repeat' split at h
    all_goals cases h
  | skip =>
    rcases hf : s.findPreamble with _ | _ | k
    · exact ⟨.next s, nofun, by
        simp [perform, opSkip, Op.guard, hf, State.guarded]⟩
    · exact ⟨.next s, nofun, by
        simp [perform, opSkip, Op.guard, hf, State.guarded]⟩
    · exact ⟨.next (s.takeSyncLoss .skipped (k + 1) 0 0 (k + 1)), nofun, by simp [perform, opSkip, Op.guard, hf]⟩

theorem perform_eq_refused_iff (b : Byte) (op : Op) (s : State) :
    perform b op s = .refused (.noStep op) ↔ op.guard s = false := by
  obtain ⟨r, hr, h⟩ := exists_perform_eq_guarded b op s
  rw [h, guarded_eq_refused_iff hr]

theorem enabledOp_ne_push (s : State) : s.enabledOp ≠ some .push := by
  unfold State.enabledOp
  repeat' split
  all_goals simp

theorem enabledOp_ne_close (s : State) : s.enabledOp ≠ some .close := by
  unfold State.enabledOp
  repeat' split
  all_goals simp

/-- No internal operation is enabled exactly while the block is not busy (R104). -/
theorem enabledOp_eq_none_iff (s : State) : s.enabledOp = none ↔ s.busy = false := by
  constructor
  · intro h
    cases hst : s.st with
    | searching =>
      have hlt : s.len < s.n := Nat.lt_of_not_le fun hfull => enabledOp_ne_none_of_n_le_len hst hfull h
      exact busy_eq_false_of_idle ((idle_iff s).2 ⟨hst, hlt⟩)
    | validating =>
      simp only [State.enabledOp, hst] at h
      split at h <;> cases h
    | candidate | emitting => simp [State.enabledOp, hst] at h
    | streamClosed | cfgFailed | unreset => simp [State.busy, hst, St.running]
  · intro h
    rw [Option.eq_none_iff_forall_ne_some]
    intro op hop
    simp [busy_of_enabledOp hop] at h

/-- A busy block has an enabled internal operation (R104). -/
theorem exists_enabledOp_of_busy {s : State} (h : s.busy = true) : ∃ op, s.enabledOp = some op := by
  rw [← Option.ne_none_iff_exists']
  exact fun hn => by simp [(enabledOp_eq_none_iff s).1 hn] at h

/-- The internal step of a busy block is a guarded operation whose guard holds. -/
theorem exists_internal_eq_guarded {s : State} (h : s.busy = true) :
    ∃ op r, (∀ x, r ≠ .refused x) ∧ internal s = s.guarded op true r := by
  obtain ⟨op, hop⟩ := exists_enabledOp_of_busy h
  obtain ⟨r, hr, hperform⟩ := exists_perform_eq_guarded 0 op s
  have hguard : op.guard s = true :=
    (enabledOp_eq_some_iff (fun e => enabledOp_ne_push s (e ▸ hop)) (fun e => enabledOp_ne_close s (e ▸ hop)) s).1 hop
  exact ⟨op, r, hr, by rw [internal_eq_perform 0 hop, hperform, hguard]⟩

/-- CLOSE has no step in a block that is not idle (R102). -/
theorem opClose_of_not_idle {s : State} (hi : ¬ s.idle = true) : opClose s = .refused (.noStep .close) :=
  guarded_of_not (Bool.eq_false_of_not_eq_true hi)

/-- CLOSE of an idle block (R102). -/
theorem opClose_of_idle {s : State} (hc : s.configured = true) (hi : s.idle = true) :
    opClose s = .next { ((s.emit .eos).dropFront s.len) with st := .streamClosed } :=
  guarded_of hi hc (len_le_cap_of_len_lt_n ((idle_iff s).1 hi).2)

theorem idle_eq_false_of_busy {s : State} (h : s.busy = true) : s.idle = false := by
  simp only [State.busy, Bool.and_eq_true, Bool.not_eq_true'] at h
  exact h.2

theorem running_of_busy {s : State} (h : s.busy = true) : s.st.running = true := by
  simp only [State.busy, Bool.and_eq_true] at h
  exact h.1

/-- A running block that is not busy is idle (R14, R104). -/
theorem idle_of_running {s : State} (hr : s.st.running = true) (hb : s.busy = false) : s.idle = true := by
  simpa [State.busy, hr] using hb

/-- The internal step of a block that is not busy is refused (R99). -/
theorem internal_of_not_busy {s : State} (h : s.busy = false) : internal s = .refused .noInternalOperation := by
  cases hst : s.st with
  | searching =>
    have hi : s.len < s.n := ((idle_iff s).1 (idle_of_running (by rw [hst]; rfl) h)).2
    simp [internal, hst, hi]
  | candidate | validating | emitting => simp [State.busy, State.idle, hst, St.running] at h
  | streamClosed | cfgFailed | unreset => simp [internal, hst]

theorem internal_of_candidate {s : State} (h : s.st = .candidate) : internal s = opCheck s := by
  rw [internal, h]

theorem internal_of_accepted {s : State} (h : s.st = .validating) (heq : s.calcReg = s.rxReg) :
    internal s = opAccept s := by
  rw [internal, h]
  exact if_pos ((checksumEqual_iff s).2 heq)

theorem internal_of_rejected {s : State} (h : s.st = .validating) (hne : s.calcReg ≠ s.rxReg) :
    internal s = opSlide s := by
  rw [internal, h]
  exact if_neg (mt (checksumEqual_iff s).1 hne)

theorem internal_of_emitting {s : State} (h : s.st = .emitting) : internal s = opEmit s := by
  rw [internal, h]

/-- Where an internal step is made, the block was busy. -/
theorem busy_of_internal {s t : State} (h : internal s = .next t) : s.busy = true := by
  by_contra hb
  rw [internal_of_not_busy (Bool.eq_false_of_not_eq_true hb)] at h
  cases h

/-- An operation other than PUSH and CLOSE that makes a step is the internal operation of its state. -/
theorem internal_of_perform {b : Byte} {op : Op} {s t : State} (hpush : op ≠ .push) (hclose : op ≠ .close)
    (h : perform b op s = .next t) : internal s = .next t := by
  have hguard : op.guard s = true := by
    by_contra hg
    rw [(perform_eq_refused_iff b op s).2 (Bool.eq_false_of_not_eq_true hg)] at h
    cases h
  rw [internal_eq_perform b ((enabledOp_eq_some_iff hpush hclose s).2 hguard), h]

/-! ### What an internal operation changes -/

/-- From `s` to `t` the first `k` bytes of the buffer are consumed and the events `es` are emitted; the configuration, the
host side and the sink's moments stay (R18, R20, R25, R33). -/
structure Consumes (s t : State) (k : Nat) (es : List Event) : Prop where
  cfg : t.cfg = s.cfg
  refSpanLo : t.refSpanLo = s.refSpanLo
  requests : t.requests = s.requests
  sink : t.sink = s.sink
  draws : t.draws = s.draws
  le_len : k ≤ s.len
  buf : t.buf = s.buf.drop k
  base : t.base = s.base + BitVec.ofNat 64 k
  evq : t.evq = s.evq ++ es
  pending : t.pending = es.getLast?.or s.pending

/-- What an operation that consumes `k` bytes emits: nothing, a loss at BASE, or a frame at BASE that is consumed whole. -/
inductive Emission (s : State) : Nat → List Event → Prop where
  | quiet (k : Nat) : Emission s k []
  | loss (k : Nat) (reason : Reason) (len : BitVec 9) (computed transmitted : Half) :
      Emission s k [.syncLoss reason s.base len computed transmitted]
  | frame (idx : BitVec 5) (payload : List Byte) (chk : Half) : Emission s s.n [.frame idx s.base payload chk]

namespace Consumes

theorem n {s t : State} {k : Nat} {es : List Event} (h : Consumes s t k es) : t.n = s.n := by
  rw [State.n, State.n, h.cfg]

theorem len {s t : State} {k : Nat} {es : List Event} (h : Consumes s t k es) : t.len = s.len - k := by
  rw [State.len, h.buf, List.length_drop, State.len]

theorem configured {s t : State} {k : Nat} {es : List Event} (h : Consumes s t k es) : t.configured = s.configured := by
  simp only [State.configured, State.configuredFor, h.cfg, h.refSpanLo]

/-- Consuming bytes leaves the stream position where it was (R28 (d)). -/
theorem position {s t : State} {k : Nat} {es : List Event} (h : Consumes s t k es) : t.position = s.position := by
  have hsplit : k + (s.len - k) = s.len := Nat.add_sub_cancel' h.le_len
  rw [State.position, State.position, h.base, h.len, BitVec.add_assoc, ← BitVec.ofNat_add, hsplit]

/-- A byte still in the buffer moved down by the number of bytes consumed (R33). -/
theorem bufByte {s t : State} {k : Nat} {es : List Event} (h : Consumes s t k es) (a : Nat) :
    t.bufByte a = s.bufByte (k + a) := by
  rw [State.bufByte, h.buf, List.getElem?_drop, State.bufByte]

/-- A change of ST, CALC and RX alone consumes nothing. -/
theorem of_registers (s : State) (st : St) (computed transmitted : Half) :
    Consumes s { s with st := st, calcReg := computed, rxReg := transmitted } 0 [] :=
  ⟨rfl, rfl, rfl, rfl, rfl, Nat.zero_le _, rfl, (BitVec.add_zero _).symm, (List.append_nil _).symm, rfl⟩

/-- A sync loss consumes what it discards (R144). -/
theorem of_takeSyncLoss {s : State} (r : Reason) (len : Nat) (c x : Half) {k : Nat} (hk : k ≤ s.len) :
    Consumes s (s.takeSyncLoss r len c x k) k
      (if r.reported s.lost then [.syncLoss r s.base (BitVec.ofNat 9 len) c x] else []) := by
  cases hrep : r.reported s.lost <;> constructor <;> simp [hrep, hk]

/-- What consumes nothing and emits nothing may come before what consumes. -/
theorem after_quiet {s u t : State} {k : Nat} {es : List Event} (h' : Consumes u t k es) (h : Consumes s u 0 []) :
    Consumes s t k es where
  cfg := h'.cfg.trans h.cfg
  refSpanLo := h'.refSpanLo.trans h.refSpanLo
  requests := h'.requests.trans h.requests
  sink := h'.sink.trans h.sink
  draws := h'.draws.trans h.draws
  le_len := h'.le_len.trans h.len.le
  buf := h'.buf.trans (by rw [h.buf]; rfl)
  base := h'.base.trans (by rw [h.base]; exact congrArg (· + _) (BitVec.add_zero _))
  evq := h'.evq.trans (by rw [h.evq, List.append_nil])
  pending := h'.pending.trans (by rw [h.pending]; rfl)

/-- EMIT consumes the frame (R93, R145). -/
theorem of_emit (s : State) (e : Event) {k : Nat} (hk : k ≤ s.len) : Consumes s ((s.emit e).endEpisode k) k [e] :=
  ⟨rfl, rfl, rfl, rfl, rfl, hk, rfl, rfl, rfl, rfl⟩

end Consumes

theorem Emission.of_takeSyncLoss (s : State) (r : Reason) (len : Nat) (c x : Half) (k : Nat) :
    Emission s k (if r.reported s.lost then [.syncLoss r s.base (BitVec.ofNat 9 len) c x] else []) := by
  split
  · exact .loss ..
  · exact .quiet k

/-- The place of the first PRE[0] byte is inside the buffer. -/
theorem lt_len_of_findPreamble {s : State} {k : Nat} (h : s.findPreamble = some k) : k < s.len :=
  lt_len_of_bufByte ((findPreamble_eq_some_iff s k).1 h).1

/-- Every internal operation consumes bytes from the head, emits at most one event, and leaves the block running. -/
theorem exists_consumes_of_internal {s t : State} (h : internal s = .next t) :
    ∃ k es, Consumes s t k es ∧ Emission s k es ∧ t.st.running = true := by
  rcases internal_eq_next h with h | h | h | h | h | h | h | h
  · obtain ⟨-, -, -, -, rfl⟩ := opDetect_eq_next h
    exact ⟨0, [], .of_registers s .candidate s.calcReg s.rxReg, .quiet 0, rfl⟩
  · obtain ⟨-, -, -, -, -, rfl⟩ := opFlush_eq_next h
    exact ⟨_, _, .of_takeSyncLoss _ _ _ _ le_rfl, .of_takeSyncLoss .., rfl⟩
  · obtain ⟨k, hk, -, -, -, -, rfl⟩ := opSkip_eq_next h
    exact ⟨_, _, .of_takeSyncLoss _ _ _ _ (lt_len_of_findPreamble hk).le, .of_takeSyncLoss .., rfl⟩
  · obtain ⟨-, -, hk, -, -, rfl⟩ := opHslide_eq_next h
    exact ⟨_, _, .of_takeSyncLoss _ _ _ _ (lt_len_of_findPreamble hk), .of_takeSyncLoss .., rfl⟩
  · obtain ⟨-, -, -, span, rx, -, -, rfl⟩ := opCheck_eq_next h
    exact ⟨0, [], .of_registers s .validating _ rx, .quiet 0, rfl⟩
  · obtain ⟨-, -, -, -, rfl⟩ := opAccept_eq_next h
    exact ⟨0, [], .of_registers s .emitting s.calcReg s.rxReg, .quiet 0, rfl⟩
  · obtain ⟨-, -, -, -, hpos, rfl⟩ := opSlide_eq_next h
    exact ⟨_, _, .of_takeSyncLoss _ _ _ _ hpos, .of_takeSyncLoss .., rfl⟩
  · obtain ⟨-, -, -, hfull, payload, -, rfl⟩ := opEmit_eq_next h
    exact ⟨_, _, .of_emit s _ hfull, .frame .., rfl⟩

/-- An internal operation returns to SEARCHING, or it is DETECT, CHECK or ACCEPT and changes ST, CALC and RX alone (R99). -/
theorem internal_searching_or_registers {s t : State} (h : internal s = .next t) :
    t.st = .searching ∨ (s.n ≤ s.len ∧ s.hdrMatch = true ∧ t = { s with st := .candidate }) ∨
    (s.st = .candidate ∧ ∃ span rx, s.span = some span ∧ s.checksumField = some rx ∧
      t = { s with calcReg := familyChecksum s.cfg.fam span, rxReg := rx, st := .validating }) ∨
    (s.st = .validating ∧ s.calcReg = s.rxReg ∧ t = { s with st := .emitting }) := by
  rcases internal_eq_next h with h | h | h | h | h | h | h | h
  · obtain ⟨hsearch, hm, -, -, rfl⟩ := opDetect_eq_next h
    exact .inr (.inl ⟨((fullSearch_iff s).1 hsearch).2, hm, rfl⟩)
  · obtain ⟨-, -, -, -, -, rfl⟩ := opFlush_eq_next h
    exact .inl rfl
  · obtain ⟨k, -, -, -, -, -, rfl⟩ := opSkip_eq_next h
    exact .inl rfl
  · obtain ⟨-, -, -, -, -, rfl⟩ := opHslide_eq_next h
    exact .inl rfl
  · obtain ⟨hst, -, -, hcheck⟩ := opCheck_eq_next h
    exact .inr (.inr (.inl ⟨hst, hcheck⟩))
  · obtain ⟨hst, heq, -, -, rfl⟩ := opAccept_eq_next h
    exact .inr (.inr (.inr ⟨hst, heq, rfl⟩))
  · obtain ⟨-, -, -, -, -, rfl⟩ := opSlide_eq_next h
    exact .inl rfl
  · obtain ⟨-, -, -, -, payload, -, rfl⟩ := opEmit_eq_next h
    exact .inl rfl

/-- A run of internal operations keeps what each of them keeps. -/
theorem InternalRun.keeps {P : State → Prop} (hint : ∀ s t, P s → internal s = .next t → P t) {s t : State}
    {ops : List Op} (hs : P s) (h : InternalRun s ops t) : P t := by
  induction h with
  | nil => exact hs
  | cons _ first _ ih => exact ih (hint _ _ hs first)

/-- One or more internal operations lead from `s` to `t`, and together they consume `k` bytes and emit `es`. -/
structure InternalSteps (s t : State) (k : Nat) (es : List Event) : Prop where
  run : ∃ op ops, InternalRun s (op :: ops) t
  consumes : Consumes s t k es
  emission : Emission s k es

namespace InternalSteps

theorem of_internal {s t : State} (h : internal s = .next t) : ∃ k es, InternalSteps s t k es := by
  obtain ⟨op, hop⟩ := exists_enabledOp_of_busy (busy_of_internal h)
  obtain ⟨k, es, hcons, hem, -⟩ := exists_consumes_of_internal h
  exact ⟨k, es, ⟨op, [], .cons hop h (.nil t)⟩, hcons, hem⟩

/-- An internal operation that consumes nothing and emits nothing may come before. -/
theorem cons_quiet {s u t : State} {k : Nat} {es : List Event} (first : internal s = .next u)
    (quiet : Consumes s u 0 []) (rest : InternalSteps u t k es) : InternalSteps s t k es := by
  obtain ⟨op, hop⟩ := exists_enabledOp_of_busy (busy_of_internal first)
  obtain ⟨op', ops, hrun⟩ := rest.run
  have hbase : u.base = s.base := quiet.base.trans (BitVec.add_zero _)
  have hem := rest.emission
  exact {
    run := ⟨op, op' :: ops, .cons hop first hrun⟩
    consumes := rest.consumes.after_quiet quiet
    emission := by
      cases hem with
      | quiet => exact .quiet k
      | loss =>
        rw [hbase]
        exact .loss ..
      | frame =>
        rw [hbase, quiet.n]
        exact .frame .. }

end InternalSteps

/-! ### What CHECK reads -/

/-- CALC and RX as functions of the first N bytes and the configuration (R80, R88). -/
theorem opCheck_eq_next_take {s t : State} (h : opCheck s = .next t) :
    ∃ hi lo, (s.buf.take s.n)[s.n - 2]? = some hi ∧ (s.buf.take s.n)[s.n - 1]? = some lo ∧ t.rxReg = be16 hi lo ∧
      t.calcReg = familyChecksum s.cfg.fam (((s.buf.take s.n).take (s.n - 2)).drop s.cfg.spanLo.toNat) := by
  obtain ⟨-, hc, -, span, rx, hspan, hrx, rfl⟩ := opCheck_eq_next h
  have hn := n_pos_of_configured hc
  have hn6 := six_le_n_of_configured hc
  unfold State.checksumField at hrx
  split at hrx
  next hi lo hhi hlo =>
    have hlen := lt_len_of_bufByte hhi
    cases hspan.symm.trans (span_eq_some hc hlen.le)
    refine ⟨hi, lo, ?_, ?_, (Option.some.inj hrx).symm, ?_⟩
    · rw [List.getElem?_take_of_lt (by omega)]
      exact hhi
    · rw [List.getElem?_take_of_lt (by omega)]
      exact hlo
    · rw [List.take_take, Nat.min_eq_left (Nat.sub_le ..)]
  next => cases hrx

/-- CHECK of a candidate shorter than N reads past LEN (R10, R18). -/
theorem opCheck_of_short {s : State} (hs : s.InSpec) (hst : s.st = .candidate) (hshort : s.len < s.n) :
    opCheck s = .fault .readPastLen := by
  have hnone : s.bufByte (s.n - 1) = none := List.getElem?_eq_none (Nat.le_sub_one_of_lt hshort)
  have hfield : s.checksumField = none := by
    simp [State.checksumField, hnone]
  rw [opCheck, guarded_of (beq_iff_eq.2 hst) hs.1 hs.2, hfield]
  split
  next h => cases h
  next => rfl

end Sys2Proof.Machine

namespace Sys2Proof

open Machine

/-- Settles O21: the effect of SLIDE written out; one byte less than a frame is left of a frame's bytes. -/
theorem slideFollowsItsRule : Obligations.SlideFollowsItsRule := by
  intro s hs hpos
  refine ⟨?_, fun hg => guarded_of_not ?_⟩
  · rintro ⟨hst, hne⟩ loss t
    have ht : s.takeSyncLoss .checksumMismatch s.n s.calcReg s.rxReg 1 = t := rfl
    refine ⟨ht ▸ opSlide_of_rejected hs hst hne hpos, fun hlen => ht ▸ takeSyncLoss_idle_and_len (by rw [hlen]) ?_⟩
    exact Nat.sub_lt (n_pos_of_configured hs.1) Nat.one_pos
  · simpa [checksumEqual_iff] using hg

/-- Settles O24: CLOSE is guarded by idleness, and dropping LEN bytes empties the buffer. -/
theorem closeFollowsItsRule : Obligations.CloseFollowsItsRule := by
  intro s hc
  rw [← idle_iff]
  refine ⟨fun hi => (opClose_of_idle hc hi).trans ?_, opClose_of_not_idle⟩
  simp [State.dropFront, State.emit, State.len]

/-- Settles O26: the guards are the transition table read by rows, and no block is both idle and busy. -/
theorem exactlyOneInternalOperation : Obligations.ExactlyOneInternalOperation := by
  intro s b
  refine ⟨fun op hpush hclose => ?_, fun op => internal_eq_perform b, enabledOp_eq_none_iff s, fun hb b' => ?_⟩
  · rw [perform_eq_refused_iff, Ne, enabledOp_eq_some_iff hpush hclose, Bool.not_eq_true]
  · have hi : ¬ s.idle = true := by simp [idle_eq_false_of_busy hb]
    exact ⟨opPush_of_not_idle b' hi, opClose_of_not_idle hi⟩

/-- Settles O56: every operation but PUSH takes from the head what it adds to BASE. -/
theorem onlyPushAdvancesTheStream : Obligations.OnlyPushAdvancesTheStream := by
  intro s t b op h
  by_cases hpush : op = .push
  · subst hpush
    obtain ⟨-, -, -, rfl⟩ := opPush_eq_next h
    simp only [State.position, State.append_base, State.len_append, BitVec.ofNat_add, BitVec.add_assoc, if_true]
    rfl
  · rw [if_neg hpush]
    refine Eq.trans ?_ (BitVec.add_zero _).symm
    by_cases hclose : op = .close
    · subst hclose
      obtain ⟨-, -, -, rfl⟩ := opClose_eq_next h
      simp [State.position, State.len]
    · obtain ⟨k, es, hcons, -⟩ := exists_consumes_of_internal (internal_of_perform hpush hclose h)
      exact hcons.position

/-- Settles O57: a sync loss sets LOST, the end of an episode clears it, and the others keep it. -/
theorem lostFollowsItsRule : Obligations.LostFollowsItsRule := by
  intro s t b op h
  cases op with
  | push =>
    obtain ⟨-, -, -, rfl⟩ := opPush_eq_next h
    rfl
  | close =>
    obtain ⟨-, -, -, rfl⟩ := opClose_eq_next h
    rfl
  | detect =>
    obtain ⟨-, -, -, -, rfl⟩ := opDetect_eq_next h
    rfl
  | flush =>
    obtain ⟨-, -, -, -, -, rfl⟩ := opFlush_eq_next h
    rfl
  | skip =>
    obtain ⟨k, -, -, -, -, -, rfl⟩ := opSkip_eq_next h
    rfl
  | hslide =>
    obtain ⟨-, -, -, -, -, rfl⟩ := opHslide_eq_next h
    rfl
  | check =>
    obtain ⟨-, -, -, span, rx, -, -, rfl⟩ := opCheck_eq_next h
    rfl
  | accept =>
    obtain ⟨-, -, -, -, rfl⟩ := opAccept_eq_next h
    rfl
  | slide =>
    obtain ⟨-, -, -, -, -, rfl⟩ := opSlide_eq_next h
    rfl
  | emit =>
    obtain ⟨-, -, -, -, payload, -, rfl⟩ := opEmit_eq_next h
    rfl

/-- Settles O58: CALC and RX are functions of the first N bytes and the configuration. -/
theorem checkReadsOnlyTheFrame : Obligations.CheckReadsOnlyTheFrame := by
  intro s s' t t' hcfg hbuf h h'
  have hn : s'.n = s.n := by rw [State.n, State.n, hcfg]
  obtain ⟨hi, lo, hhi, hlo, hrx, hcalc⟩ := opCheck_eq_next_take h
  obtain ⟨hi', lo', hhi', hlo', hrx', hcalc'⟩ := opCheck_eq_next_take h'
  rw [← hbuf, hn] at hhi' hlo' hcalc'
  cases hhi.symm.trans hhi'
  cases hlo.symm.trans hlo'
  exact ⟨hcalc.trans (by rw [hcalc', hcfg]), hrx.trans hrx'.symm⟩

/-- Settles O59: one step of a list of instances, by the place of the one that makes it. -/
theorem instancesAreIsolated : Obligations.InstancesAreIsolated := by
  intro k l
  induction l generalizing k with
  | nil =>
    intro l' h
    cases k <;>
    · cases h
      simp
  | cons s others ih =>
    intro l' h
    cases k with
    | zero =>
      simp only [stepInstance] at h
      split at h
      next t ht =>
        cases h
        refine ⟨rfl, fun j hj => ?_, fun u hu => ?_⟩
        · obtain ⟨m, rfl⟩ := Nat.exists_eq_succ_of_ne_zero hj
          rfl
        · cases hu
          exact ⟨t, ht, rfl⟩
      all_goals cases h
    | succ k =>
      simp only [stepInstance] at h
      split at h
      next ts hts =>
        cases h
        obtain ⟨hlen, hother, hown⟩ := ih k ts hts
        refine ⟨by simp [hlen], fun j hj => ?_, fun u hu => ?_⟩
        · cases j with
          | zero => rfl
          | succ j => exact hother j (fun e => hj (congrArg _ e))
        · exact hown u hu
      all_goals cases h

end Sys2Proof
end

section
/-! PROOF. The schedule (44_packet_stream.md R99, R100, R104, R107, R108): what an instruction, an operation of the schedule
and a step do in each situation, and what a step can do when it answers a next state. -/

namespace Sys2Proof.Machine

/-! ### An instruction -/

theorem atHead_iff (s : State) (t : FrameType) (payload : List Byte) (chk : Half) :
    s.atHead t payload chk = true ↔ s.buf.take t.size = encodeFrame t payload chk := beq_iff_eq

theorem encodeFrame_length {t : FrameType} {payload : List Byte} (h : payload.length = t.payloadLen) (chk : Half) :
    (encodeFrame t payload chk).length = t.size :=
  (Laws.Layout.of_entry t payload chk h (Nat.le_trans (by decide) t.size_bounds.1)).1

/-- What the decoder reads from the buffer stands at its head. -/
theorem atHead_of_decode {s : State} {i : Instr} {rest : List Byte} (h : decode s.buf = .ok (i, rest)) :
    s.atHead i.type i.payload i.chk = true := by
  obtain ⟨hwf, henc⟩ := decode_eq_ok_iff_encode.1 h
  have hlen := encodeFrame_length (beq_iff_eq.1 hwf) i.chk
  rw [atHead_iff, ← henc, encode, List.take_append_of_le_length hlen.ge, ← hlen, List.take_length]

/-- An instruction whose bytes do not stand at the head has no step. -/
theorem exec_of_not_atHead {i : Instr} {s : State} (h : ¬ s.atHead i.type i.payload i.chk = true) :
    exec i s = .refused .frameNotAtHead := by
  rw [exec_eq, processFrame, if_neg h]

/-- With an event pending an instruction is one moment of the sink (R108). -/
theorem exec_of_pending {i : Instr} {s : State} {e : Event} (h : s.atHead i.type i.payload i.chk = true)
    (he : s.pending = some e) : exec i s = .next s.sinkMoment := by
  rw [exec_eq, processFrame, if_pos h, he]

/-- A frame of the configured type is processed by its rule (R112 to R128). -/
theorem exec_of_configuredFor {i : Instr} {s : State} (h : s.atHead i.type i.payload i.chk = true)
    (hp : s.pending = none) (hc : s.configuredFor i.type = true) : exec i s = frameRule s := by
  simp only [exec_eq, processFrame, if_pos h, hp, if_pos hc]

/-- A frame of another type is misaligned bytes (R53). -/
theorem exec_of_not_configuredFor {i : Instr} {s : State} (h : s.atHead i.type i.payload i.chk = true)
    (hp : s.pending = none) (hc : s.configuredFor i.type = false) : exec i s = internal s := by
  simp [exec_eq, processFrame, h, hp, hc]

theorem finishJudged_of_equal {s : State} (heq : s.calcReg = s.rxReg) :
    finishJudged s = andThen (opAccept s) opEmit :=
  if_pos ((checksumEqual_iff s).2 heq)

theorem finishJudged_of_unequal {s : State} (hne : s.calcReg ≠ s.rxReg) : finishJudged s = opSlide s :=
  if_neg (mt (checksumEqual_iff s).1 hne)

theorem frameRule_of_searching {s : State} (h : s.st = .searching) :
    frameRule s = andThen (opDetect s) fun s1 => andThen (opCheck s1) finishJudged := by
  rw [frameRule, h]

theorem frameRule_of_candidate {s : State} (h : s.st = .candidate) :
    frameRule s = andThen (opCheck s) finishJudged := by
  rw [frameRule, h]

theorem frameRule_of_validating {s : State} (h : s.st = .validating) : frameRule s = finishJudged s := by
  rw [frameRule, h]

theorem frameRule_of_emitting {s : State} (h : s.st = .emitting) : frameRule s = opEmit s := by
  rw [frameRule, h]

/-- Outside the running phase a frame has no step (R99). -/
theorem frameRule_of_not_running {s : State} (h : s.st.running = false) :
    frameRule s = .refused .noInternalOperation := by
  cases hst : s.st with
  | searching | candidate | validating | emitting => simp [hst, St.running] at h
  | streamClosed | cfgFailed | unreset => rw [frameRule, hst]

/-- From a verdict to the end of the frame: ACCEPT and EMIT, or SLIDE. -/
theorem internalSteps_of_finishJudged {s t : State} (hst : s.st = .validating) (h : finishJudged s = .next t) :
    ∃ k es, InternalSteps s t k es := by
  by_cases heq : s.calcReg = s.rxReg
  · rw [finishJudged_of_equal heq] at h
    obtain ⟨u, hu, hemit⟩ := andThen_eq_next h
    have hfirst : internal s = .next u := (internal_of_accepted hst heq).trans hu
    obtain ⟨-, -, -, -, rfl⟩ := opAccept_eq_next hu
    obtain ⟨k, es, hsteps⟩ := InternalSteps.of_internal (s := { s with st := .emitting }) hemit
    exact ⟨k, es, hsteps.cons_quiet hfirst (.of_registers s .emitting s.calcReg s.rxReg)⟩
  · rw [finishJudged_of_unequal heq, ← internal_of_rejected hst heq] at h
    exact InternalSteps.of_internal h

/-- From CANDIDATE to the end of the frame. -/
theorem internalSteps_of_check {s t : State} (hst : s.st = .candidate) (h : andThen (opCheck s) finishJudged = .next t) :
    ∃ k es, InternalSteps s t k es := by
  obtain ⟨u, hu, hend⟩ := andThen_eq_next h
  have hfirst : internal s = .next u := (internal_of_candidate hst).trans hu
  obtain ⟨-, -, -, span, rx, -, -, rfl⟩ := opCheck_eq_next hu
  obtain ⟨k, es, hsteps⟩ := internalSteps_of_finishJudged rfl hend
  exact ⟨k, es, hsteps.cons_quiet hfirst (.of_registers s .validating _ rx)⟩

/-- DETECT, CHECK and ACCEPT of a frame's rule change registers only, and the operation that ends it consumes and emits
(R112 to R128). -/
theorem internalSteps_of_frameRule {s t : State} (h : frameRule s = .next t) : ∃ k es, InternalSteps s t k es := by
  cases hst : s.st with
  | searching =>
    rw [frameRule_of_searching hst] at h
    obtain ⟨u, hu, hend⟩ := andThen_eq_next h
    have hfirst : internal s = .next u := internal_of_perform (b := 0) (op := .detect) (by decide) (by decide) hu
    obtain ⟨-, -, -, -, rfl⟩ := opDetect_eq_next hu
    obtain ⟨k, es, hsteps⟩ := internalSteps_of_check rfl hend
    exact ⟨k, es, hsteps.cons_quiet hfirst (.of_registers s .candidate s.calcReg s.rxReg)⟩
  | candidate => exact internalSteps_of_check hst (frameRule_of_candidate hst ▸ h)
  | validating => exact internalSteps_of_finishJudged hst (frameRule_of_validating hst ▸ h)
  | emitting => exact InternalSteps.of_internal ((internal_of_emitting hst).trans (frameRule_of_emitting hst ▸ h))
  | streamClosed | cfgFailed | unreset =>
    rw [frameRule_of_not_running (by rw [hst]; rfl)] at h
    cases h

/-- What an instruction does when it answers a next state: a moment of the sink, or internal operations. -/
theorem exec_sink_or_internalSteps {i : Instr} {s t : State} (h : exec i s = .next t) :
    ((∃ e, s.pending = some e) ∧ t = s.sinkMoment) ∨ (s.pending = none ∧ ∃ k es, InternalSteps s t k es) := by
  rcases (exec_eq_next h).2 with hsink | ⟨hp, ⟨-, hrule⟩ | hint⟩
  · exact .inl hsink
  · exact .inr ⟨hp, internalSteps_of_frameRule hrule⟩
  · exact .inr ⟨hp, InternalSteps.of_internal hint⟩

/-! ### An operation of the schedule -/

/-- An event not accepted waits for the sink (R108). -/
theorem operate_of_pending {s : State} {e : Event} (hreset : s.resetPresented = false) (he : s.pending = some e) :
    operate s = .next s.sinkMoment := by
  unfold operate
  split
  next hreq => simp [State.resetPresented, hreq] at hreset
  next => rw [he]

/-- A busy block performs its internal operation (R104). -/
theorem operate_of_busy {s : State} (hreset : s.resetPresented = false) (hp : s.pending = none)
    (hb : s.busy = true) : operate s = internal s := by
  unfold operate
  split
  next hreq => simp [State.resetPresented, hreq] at hreset
  next => simp only [hp, running_of_busy hb, idle_eq_false_of_busy hb, if_true, Bool.false_eq_true, if_false]

theorem running_of_idle {s : State} (hi : s.idle = true) : s.st.running = true := by
  rw [((idle_iff s).1 hi).1]
  rfl

/-- An idle block takes the next request (R104, R111). -/
theorem operate_of_idle {s : State} (hp : s.pending = none) (hi : s.idle = true) : operate s = takeRequest s := by
  unfold operate
  split
  next hreq => simp only [takeRequest, hreq]
  next => simp only [hp, running_of_idle hi, hi, if_true]

/-- Outside the running phase only RESET has a step (R101, R103). -/
theorem operate_of_not_running {s : State} (hp : s.pending = none) (hr : s.st.running = false) :
    operate s = onlyReset s := by
  unfold operate
  split
  next hreq => simp only [onlyReset, hreq]
  next => simp only [hp, hr, Bool.false_eq_true, if_false]

/-! ### A step -/

theorem fetch_eq_some_iff (s : State) (i : Instr) :
    s.fetch = some i ↔ s.st.running = true ∧ s.resetPresented = false ∧ s.n ≤ s.len ∧
      ∃ rest, decode s.buf = .ok (i, rest) := by
  unfold State.fetch
  split
  next hg =>
    simp only [Bool.and_eq_true, Bool.not_eq_true', decide_eq_true_eq] at hg
    rcases decode s.buf with e | ⟨j, rest⟩ <;> simp [hg]
  next hg =>
    simp only [Bool.and_eq_true, Bool.not_eq_true', decide_eq_true_eq] at hg
    simp only [reduceCtorEq, false_iff]
    exact fun ⟨hr, hreset, hfull, _⟩ => hg ⟨⟨hr, hreset⟩, hfull⟩

theorem step_of_fetch_eq_some {s : State} {i : Instr} (h : s.fetch = some i) : step s = exec i s := by
  rw [step, h]

theorem step_of_fetch_eq_none {s : State} (h : s.fetch = none) : step s = operate s := by
  rw [step, h]

theorem fetch_eq_none_of_len_lt {s : State} (h : s.len < s.n) : s.fetch = none := by
  rw [Option.eq_none_iff_forall_ne_some]
  exact fun i hi => absurd ((fetch_eq_some_iff s i).1 hi).2.2.1 (Nat.not_le.2 h)

theorem fetch_eq_none_of_not_running {s : State} (h : s.st.running = false) : s.fetch = none := by
  rw [Option.eq_none_iff_forall_ne_some]
  intro i hi
  simp [((fetch_eq_some_iff s i).1 hi).1] at h

/-- A running block that holds N bytes is busy (R104). -/
theorem busy_of_n_le_len {s : State} (hr : s.st.running = true) (hfull : s.n ≤ s.len) : s.busy = true := by
  simp [State.busy, hr, idle_eq_false_of_n_le_len hfull]

/-- Without a frame of the configured type at the head, a step is one operation of the schedule. -/
theorem step_eq_operate {s : State} (h : ∀ i, s.fetch = some i → s.configuredFor i.type = false) :
    step s = operate s := by
  cases hf : s.fetch with
  | none => exact step_of_fetch_eq_none hf
  | some i =>
    obtain ⟨hr, hreset, hfull, rest, hdec⟩ := (fetch_eq_some_iff s i).1 hf
    rw [step_of_fetch_eq_some hf]
    cases hp : s.pending with
    | some e => rw [exec_of_pending (atHead_of_decode hdec) hp, operate_of_pending hreset hp]
    | none =>
      rw [exec_of_not_configuredFor (atHead_of_decode hdec) hp (h i hf),
        operate_of_busy hreset hp (busy_of_n_le_len hr hfull)]

/-- With an event pending and no RESET presented, a step is a moment of the sink (R108). -/
theorem step_of_pending {s : State} {e : Event} (hreset : s.resetPresented = false) (he : s.pending = some e) :
    step s = .next s.sinkMoment := by
  cases hf : s.fetch with
  | none => rw [step_of_fetch_eq_none hf, operate_of_pending hreset he]
  | some i =>
    obtain ⟨-, -, -, rest, hdec⟩ := (fetch_eq_some_iff s i).1 hf
    rw [step_of_fetch_eq_some hf, exec_of_pending (atHead_of_decode hdec) he]

/-- A step of an idle block with nothing pending takes the next request. -/
theorem step_of_idle {s : State} (hp : s.pending = none) (hi : s.idle = true) : step s = takeRequest s := by
  rw [step_of_fetch_eq_none (fetch_eq_none_of_len_lt ((idle_iff s).1 hi).2), operate_of_idle hp hi]

/-- A step outside the running phase with nothing pending. -/
theorem step_of_not_running {s : State} (hp : s.pending = none) (hr : s.st.running = false) :
    step s = onlyReset s := by
  rw [step_of_fetch_eq_none (fetch_eq_none_of_not_running hr), operate_of_not_running hp hr]

theorem awaitReset_of_nextReset {s : State} {op : Op} {fam : Family} {key : Half} {later : List Request}
    (h : nextReset s.requests = some (fam, key, later)) :
    awaitReset op s = .next (opReset fam key { s with requests := later }) := by
  rw [awaitReset, h]

theorem awaitReset_of_no_reset {s : State} {op : Op} (h : nextReset s.requests = none) :
    awaitReset op s = .refused (.noStep op) := by
  rw [awaitReset, h]

theorem awaitReset_eq_next {s t : State} {op : Op} (h : awaitReset op s = .next t) :
    ∃ fam key later, nextReset s.requests = some (fam, key, later) ∧
      t = opReset fam key { s with requests := later } := by
  cases hn : nextReset s.requests with
  | none =>
    rw [awaitReset_of_no_reset hn] at h
    cases h
  | some r =>
    obtain ⟨fam, key, later⟩ := r
    rw [awaitReset_of_nextReset hn] at h
    cases h
    exact ⟨fam, key, later, rfl, rfl⟩

/-- What a step can do when it answers a next state. -/
inductive StepCase (s : State) : State → Prop where
  | reset {fam : Family} {key : Half} {later : List Request} (h : nextReset s.requests = some (fam, key, later)) :
      StepCase s (opReset fam key { s with requests := later })
  | sink {e : Event} (h : s.pending = some e) : StepCase s s.sinkMoment
  | internal {t : State} {k : Nat} {es : List Event} (h : InternalSteps s t k es) : StepCase s t
  | push (b : Byte) (later : List Request) (h : s.idle = true) : StepCase s ({ s with requests := later }.append b)
  | close (later : List Request) (h : s.idle = true) :
      StepCase s { (({ s with requests := later }.emit .eos).dropFront s.len) with st := .streamClosed }
  | request (later : List Request) : StepCase s { s with requests := later }

theorem stepCase_of_takeRequest {s t : State} (h : takeRequest s = .next t) : StepCase s t := by
  unfold takeRequest at h
  split at h
  · cases h
    exact .request s.requests
  next later _ =>
    cases h
    exact .request later
  next fam key later hreq =>
    cases h
    exact .reset (by rw [hreq]; rfl)
  next b later _ =>
    obtain ⟨hi, -, -, rfl⟩ := opPush_eq_next h
    exact .push b later hi
  next later _ =>
    obtain ⟨hi, -, -, rfl⟩ := opClose_eq_next h
    exact .close later hi

theorem stepCase_of_onlyReset {s t : State} (h : onlyReset s = .next t) : StepCase s t := by
  unfold onlyReset at h
  split at h
  · cases h
    exact .request s.requests
  next later _ =>
    cases h
    exact .request later
  next fam key later hreq =>
    cases h
    exact .reset (by rw [hreq]; rfl)
  all_goals
    obtain ⟨fam, key, later, hnext, rfl⟩ := awaitReset_eq_next h
    exact .reset hnext

/-- Every step is one of these. -/
theorem stepCase_of_step {s t : State} (h : step s = .next t) : StepCase s t := by
  cases hf : s.fetch with
  | some i =>
    rw [step_of_fetch_eq_some hf] at h
    rcases exec_sink_or_internalSteps h with ⟨⟨e, he⟩, rfl⟩ | ⟨-, k, es, hsteps⟩
    · exact .sink he
    · exact .internal hsteps
  | none =>
    rw [step_of_fetch_eq_none hf] at h
    rcases operate_eq_next h with ⟨fam, key, later, hreq, rfl⟩ | ⟨-, ⟨e, he⟩, rfl⟩ | ⟨-, -, -, hint⟩ | ⟨-, -, -, htake⟩ |
      ⟨-, -, -, honly⟩
    · exact .reset (by rw [hreq]; rfl)
    · exact .sink he
    · obtain ⟨k, es, hsteps⟩ := InternalSteps.of_internal hint
      exact .internal hsteps
    · exact stepCase_of_takeRequest htake
    · exact stepCase_of_onlyReset honly

@[simp] theorem opReset_evq (fam : Family) (key : Half) (s : State) : (opReset fam key s).evq = [] := by
  unfold opReset
  split <;> rfl

/-! ### The sink -/

theorem sinkMoment_of_not_ready {s : State} {later : List Bool} (h : s.sink = false :: later) :
    s.sinkMoment = { s with sink := later } := by
  rw [State.sinkMoment, h]

theorem sinkMoment_of_ready {s : State} {later : List Bool} (h : s.sink = true :: later) :
    s.sinkMoment = { s with sink := later, pending := none } := by
  rw [State.sinkMoment, h]

theorem sinkMoment_of_nil {s : State} (h : s.sink = []) : s.sinkMoment = { s with pending := none } := by
  simp only [State.sinkMoment, h]

/-- A sink that is ready takes the event: every event of EVQ is delivered then. -/
theorem delivered_sinkMoment_of_ready {s : State} (h : s.sink.head? ≠ some false) : s.sinkMoment.delivered = s.evq := by
  rcases hs : s.sink with _ | ⟨_ | _, later⟩
  · rw [sinkMoment_of_nil hs]
    rfl
  · simp [hs] at h
  · rw [sinkMoment_of_ready hs]
    rfl

theorem delivered_sinkMoment_of_not_ready {s : State} (h : s.sink.head? = some false) :
    s.sinkMoment.delivered = s.delivered := by
  obtain ⟨later, hs⟩ := List.head?_eq_some_iff.1 h
  rw [sinkMoment_of_not_ready hs]
  rfl

/-- EVQ is what was delivered and the event pending (R25, R26). -/
theorem delivered_append_pending {s : State} (h : s.pendingInv) : s.delivered ++ s.pending.toList = s.evq := by
  rcases hp : s.pending with _ | e
  · simp [State.delivered, hp]
  · have hlast : s.evq.getLast? = some e := by
      rcases h with h | h
      · simp [hp] at h
      · rw [← h, hp]
    obtain ⟨older, hevq⟩ := List.getLast?_eq_some_iff.1 hlast
    simp [State.delivered, hp, hevq]

end Sys2Proof.Machine

namespace Sys2Proof

open Machine

/-- Settles O42: with an event pending, every instruction is one moment of the sink. -/
theorem framesWaitForTheSink : Obligations.FramesWaitForTheSink := fun _ _ _ => exec_of_pending

/-- Settles O43: the precondition of every instruction, CHECK past LEN, and the common guard outside the specification. -/
theorem stopsStandOutsideTheRules : Obligations.StopsStandOutsideTheRules := by
  refine ⟨fun i s h => exec_of_not_atHead (mt (atHead_iff ..).1 h), fun s => opCheck_of_short, fun s hc hcap hr => ?_,
    fun s hc hr hb => ?_⟩
  · have hfull : s.n ≤ s.len := by
      unfold State.cap at hcap
      omega
    obtain ⟨op, r, -, hint⟩ := exists_internal_eq_guarded (busy_of_n_le_len hr hfull)
    simp [hint, State.guarded, hc, Nat.not_le.2 hcap]
  · obtain ⟨op, r, -, hint⟩ := exists_internal_eq_guarded hb
    simp [hint, State.guarded, hc]

/-- Settles O44: an instruction consumes bytes from the head and emits at most one event, or gives the sink its moment. -/
theorem framesKeepTheirFrame : Obligations.FramesKeepTheirFrame := by
  intro i s t h
  rcases exec_sink_or_internalSteps h with ⟨⟨e, he⟩, rfl⟩ | ⟨hp, k, es, -, hcons, hem⟩
  · refine ⟨by simp, by simp, by simp, by simp, fun hp => by simp [hp] at he, by simp [State.len], fun a => ?_, ?_,
      .inl (by simp)⟩
    · simp [State.bufByte, State.len]
    · simp [State.position, State.len]
  · have hlen : t.len = s.len - k := hcons.len
    have hk : k ≤ s.len := hcons.le_len
    refine ⟨hcons.cfg, hcons.refSpanLo, hcons.requests, hcons.draws, fun _ => hcons.sink, by omega, fun a => ?_,
      hcons.position, ?_⟩
    · rw [hlen, Nat.sub_sub_self hk]
      exact hcons.bufByte a
    · have hevq := hcons.evq
      have hpending := hcons.pending
      cases hem with
      | quiet => exact .inl (hevq.trans (List.append_nil _))
      | loss => exact .inr ⟨_, hevq, hpending⟩
      | frame => exact .inr ⟨_, hevq, hpending⟩

/-- Settles O45: what the decoder reads in a running block is what the step fetches. -/
theorem stepRunsTheDecodedInstruction : Obligations.StepRunsTheDecodedInstruction := fun s i rest hdec hr hfull hreset =>
  step_of_fetch_eq_some ((fetch_eq_some_iff s i).2 ⟨hr, hreset, hfull, rest, hdec⟩)

/-- Settles O46: the schedule by its order: a RESET, the sink, the internal operation, the requests. -/
theorem stepWithoutAFrameIsOneOperation : Obligations.StepWithoutAFrameIsOneOperation := by
  intro s
  refine ⟨fun hf => ⟨step_eq_operate hf, fun hreset hp hb => ?_⟩, fun _ _ _ => step_of_reset_presented,
    fun _ he hreset => step_of_pending hreset he, fun hi hp => ?_⟩
  · rw [step_eq_operate hf, operate_of_busy hreset hp hb]
  · rw [step_of_idle hp hi]
    refine ⟨fun b later hc hreq => ?_, fun later hc hreq => ?_, fun later hreq => ?_, fun hreq => ?_⟩
    · simp only [takeRequest, hreq]
      exact opPush_of_idle (s := { s with requests := later }) b hc hi
    · simp only [takeRequest, hreq]
      refine (opClose_of_idle (s := { s with requests := later }) hc hi).trans ?_
      simp [State.dropFront, State.emit, State.len]
    · simp only [takeRequest, hreq]
    · simp only [takeRequest, hreq]

/-- Settles O52: every step but a RESET keeps the configuration registers and draws no free value. -/
theorem configurationChangesOnlyAtReset : Obligations.ConfigurationChangesOnlyAtReset := by
  intro s t h hchange
  cases stepCase_of_step h with
  | reset hnext => exact ⟨_, _, _, hnext, rfl⟩
  | internal hsteps =>
    obtain ⟨-, hcons, -⟩ := hsteps
    exact absurd hchange (not_or.2 ⟨not_not.2 hcons.cfg, not_not.2 hcons.draws⟩)
  | sink | push | close | request => simp at hchange

/-- Settles O53: the events of a step, by what the step can do. -/
theorem atMostOneEventPerStep : Obligations.AtMostOneEventPerStep := by
  intro s t h
  cases stepCase_of_step h with
  | reset hnext => exact .inr (.inr ⟨_, _, _, hnext, rfl, opReset_evq ..⟩)
  | sink => exact .inl (by simp)
  | internal hsteps =>
    obtain ⟨-, hcons, hem⟩ := hsteps
    have hevq := hcons.evq
    have hpending := hcons.pending
    cases hem with
    | quiet => exact .inl (hevq.trans (List.append_nil _))
    | loss => exact .inr (.inl ⟨_, hevq, hpending⟩)
    | frame => exact .inr (.inl ⟨_, hevq, hpending⟩)
  | push => exact .inl rfl
  | close => exact .inr (.inl ⟨.eos, rfl, rfl⟩)
  | request => exact .inl rfl

/-- Settles O54: the step is the sink's moment, which the head of `sink` decides. -/
theorem pendingEventHoldsTheBlock : Obligations.PendingEventHoldsTheBlock := fun _ _ he hreset =>
  ⟨step_of_pending hreset he, fun _ => sinkMoment_of_not_ready, fun _ => sinkMoment_of_ready, sinkMoment_of_nil⟩

/-- Settles O55: in a final phase the step is decided by the oldest request, and for a PUSH or CLOSE by the next RESET. -/
theorem onlyResetLeavesAFinalPhase : Obligations.OnlyResetLeavesAFinalPhase := by
  intro s hst hp
  have hr : s.st.running = false := by rcases hst with h | h | h <;> rw [h] <;> rfl
  rw [step_of_not_running hp hr]
  refine ⟨fun hn b later hreq => ?_, fun hn later hreq => ?_, fun t hn h => ?_, fun fam key later hreq => ?_,
    fun hreq => ?_, fun later hreq => ?_, fun fam key later hn hreq => ?_⟩
  · simp only [onlyReset, hreq, awaitReset_of_no_reset hn]
  · simp only [onlyReset, hreq, awaitReset_of_no_reset hn]
  · unfold onlyReset at h
    split at h
    · cases h
      rfl
    · cases h
      rfl
    next hreq => simp [hreq, nextReset] at hn
    all_goals
      rw [awaitReset_of_no_reset hn] at h
      cases h
  · simp only [onlyReset, hreq]
  · simp only [onlyReset, hreq]
  · simp only [onlyReset, hreq]
  · rcases hreq with ⟨b, after, hreq⟩ | ⟨after, hreq⟩
    · simp only [onlyReset, hreq, awaitReset_of_nextReset hn]
    · simp only [onlyReset, hreq, awaitReset_of_nextReset hn]

/-- Settles O60: each view by its definition; LEN fits its 9 bits because it is at most N, which has 8. -/
theorem statusShowsTheRegisters : Obligations.StatusShowsTheRegisters := by
  refine ⟨rfl, rfl, fun e => ?_, fun s => ⟨⟨rfl, rfl, rfl, rfl, rfl, rfl⟩, fun hinv => ?_, fun hst => ?_, ?_,
    delivered_append_pending, delivered_sinkMoment_of_ready, delivered_sinkMoment_of_not_ready⟩⟩
  · cases e <;> simp [Event.kind]
  · obtain ⟨-, hlen, -, -, hempty, -⟩ := hinv
    have hlt : s.len < 2 ^ 9 := by
      cases hr : s.st.running with
      | true => exact (hlen hr).trans_lt (s.cfg.n.isLt.trans (by decide))
      | false => simp [State.len, hempty hr]
    exact Nat.mod_eq_of_lt hlt
  · cases h : s.st with
    | unreset => exact absurd h hst
    | searching | candidate | validating | emitting | streamClosed | cfgFailed =>
      simp [State.inReady, State.cfgErr, State.closed, h, St.code]
  · cases hp : s.pending <;> simp [State.outValid, State.outKind, hp]

end Sys2Proof
end

section
/-! PROOF. The invariants (10_state.md R17, R26, R28, 20_memory.md R43): RESET establishes them, every step keeps them, and
under them the block neither faults nor refuses but for late requests (60_exceptions.md section 2, 40_byte_input.md R62). -/

namespace Sys2Proof.Machine

/-! ### RESET -/

/-- RESET with a supported key leaves the registers of a catalog entry (R17, R100). -/
theorem configuredFor_opReset {fam : Family} {key : Half} {t : FrameType} (h : lookup fam key = some t) (s : State) :
    (opReset fam key s).configuredFor t = true := by
  rw [configuredFor_iff, opReset_of_lookup_some h]
  refine ⟨?_, rfl⟩
  change lookup t.family key = some t
  rw [lookup_family h, h]

theorem opReset_inv (fam : Family) (key : Half) (s : State) : (opReset fam key s).Inv := by
  cases h : lookup fam key with
  | some t =>
    have hc : (opReset fam key s).configured = true := (configured_iff _).2 ⟨t, configuredFor_opReset h s⟩
    refine ⟨fun _ => hc, ?_⟩
    simp [opReset_of_lookup_some h, State.len, State.lenInv, State.emptyInv, State.candidateInv, State.eosInv,
      State.pendingInv]
  | none =>
    simp [opReset_of_lookup_none h, State.Inv, State.candidateInv, State.eosInv, State.pendingInv, St.running]

/-- Without events there are no offsets to order. -/
theorem offsetsInv_of_evq_nil {s : State} (h : s.evq = []) : s.offsetsInv := by
  simp [State.offsetsInv, h, frameOffsets, eventOffsets]

/-! ### The host side -/

/-- The same block with other requests, another pending event and other moments of the sink. -/
def State.withHost (s : State) (requests : List Request) (pending : Option Event) (sink : List Bool) : State :=
  { s with requests := requests, pending := pending, sink := sink }

/-- The invariant speaks of the host side only where it says that the pending event is the newest. -/
theorem inv_withHost {s : State} (h : s.Inv) (requests : List Request) {pending : Option Event} (sink : List Bool)
    (hp : pending = none ∨ pending = s.pending) : (s.withHost requests pending sink).Inv := by
  obtain ⟨hcfg, hlen, hcand, hchecked, hempty, heos, hpend⟩ := h
  refine ⟨hcfg, hlen, hcand, hchecked, hempty, heos, ?_⟩
  rcases hp with rfl | rfl
  · exact .inl rfl
  · exact hpend

/-- The sink's moment changes the host side only, and leaves the pending event or takes it. -/
theorem exists_sinkMoment_eq_withHost (s : State) :
    ∃ pending sink, s.sinkMoment = s.withHost s.requests pending sink ∧ (pending = none ∨ pending = s.pending) := by
  rcases hs : s.sink with _ | ⟨_ | _, later⟩
  · exact ⟨none, s.sink, sinkMoment_of_nil hs, .inl rfl⟩
  · exact ⟨s.pending, later, sinkMoment_of_not_ready hs, .inr rfl⟩
  · exact ⟨none, later, sinkMoment_of_ready hs, .inl rfl⟩

theorem sinkMoment_keeps_inv {s : State} (h : s.Inv) : s.sinkMoment.Inv := by
  obtain ⟨pending, sink, heq, hp⟩ := exists_sinkMoment_eq_withHost s
  rw [heq]
  exact inv_withHost h s.requests sink hp

/-! ### Internal operations -/

theorem candidateInv_of_searching {s : State} (h : s.st = .searching) : s.candidateInv := by
  simp [State.candidateInv, h]

theorem checkedInv_of_searching {s : State} (h : s.st = .searching) : s.checkedInv := by
  simp [State.checkedInv, h]

/-- DETECT finds a whole frame with a matching header, and nothing changes the buffer until EMIT or SLIDE (R28 (b)). -/
theorem internal_keeps_candidateInv {s t : State} (hinv : s.candidateInv) (h : internal s = .next t) :
    t.candidateInv := by
  rcases internal_searching_or_registers h with hst | ⟨hfull, hm, rfl⟩ | ⟨hst, span, rx, -, -, rfl⟩ | ⟨hst, heq, rfl⟩
  · exact candidateInv_of_searching hst
  · exact ⟨fun _ => ⟨hfull, hm⟩, nofun⟩
  · exact ⟨fun _ => hinv.1 (.inl hst), nofun⟩
  · exact ⟨fun _ => hinv.1 (.inr (.inl hst)), fun _ => heq⟩

/-- CHECK computes CALC and RX from the buffer, which ACCEPT leaves as it is (R80, R88). -/
theorem internal_keeps_checkedInv {s t : State} (hinv : s.checkedInv) (h : internal s = .next t) : t.checkedInv := by
  rcases internal_searching_or_registers h with hst | ⟨-, -, rfl⟩ | ⟨-, span, rx, hspan, hrx, rfl⟩ | ⟨hst, -, rfl⟩
  · exact checkedInv_of_searching hst
  · exact fun hst => by simp at hst
  · exact fun _ => ⟨congrArg (Option.map (familyChecksum s.cfg.fam)) hspan, hrx⟩
  · exact fun _ => hinv (.inl hst)

/-- No internal operation emits EOS. -/
theorem Emission.eos_not_mem {s : State} {k : Nat} {es : List Event} (h : Emission s k es) : Event.eos ∉ es := by
  cases h <;> simp

/-- The event held for the sink is the newest, also after new events. -/
theorem Consumes.pendingInv {s t : State} {k : Nat} {es : List Event} (h : Consumes s t k es) (hs : s.pendingInv) :
    t.pendingInv := by
  rw [State.pendingInv, h.pending, h.evq, List.getLast?_append]
  cases es.getLast? with
  | none => simpa using hs
  | some e => simp

theorem eosInv_of_not_closed {s : State} (hst : s.st ≠ .streamClosed) : s.eosInv ↔ Event.eos ∉ s.evq := by
  rw [State.eosInv, if_neg hst]

theorem ne_streamClosed_of_running {s : State} (h : s.st.running = true) : s.st ≠ .streamClosed := fun hst => by
  simp [hst, St.running] at h

theorem internal_keeps_inv {s t : State} (hinv : s.Inv) (h : internal s = .next t) : t.Inv := by
  obtain ⟨hcfg, hlen, hcand, hchecked, hempty, heos, hpend⟩ := hinv
  have hrun := running_of_busy (busy_of_internal h)
  obtain ⟨k, es, hcons, hem, hrun'⟩ := exists_consumes_of_internal h
  have hlen' : t.len ≤ t.n := by
    rw [hcons.len, hcons.n]
    exact (Nat.sub_le ..).trans (hlen hrun)
  have heos' : Event.eos ∉ t.evq := by
    rw [hcons.evq, List.mem_append]
    exact not_or.2 ⟨(eosInv_of_not_closed (ne_streamClosed_of_running hrun)).1 heos, hem.eos_not_mem⟩
  exact ⟨fun _ => hcons.configured.trans (hcfg (.inl hrun)), fun _ => hlen', internal_keeps_candidateInv hcand h,
    internal_keeps_checkedInv hchecked h, fun hst => by simp [hrun'] at hst,
    (eosInv_of_not_closed (ne_streamClosed_of_running hrun')).2 heos', hcons.pendingInv hpend⟩

/-! ### Requests -/

theorem append_keeps_inv {s : State} (b : Byte) (hinv : s.Inv) (hi : s.idle = true) : (s.append b).Inv := by
  obtain ⟨hcfg, -, -, -, -, heos, hpend⟩ := hinv
  obtain ⟨hst, hlt⟩ := (idle_iff s).1 hi
  have hlen : (s.append b).len ≤ (s.append b).n := (State.len_append s b).le.trans hlt
  exact ⟨hcfg, fun _ => hlen, candidateInv_of_searching hst, checkedInv_of_searching hst,
    fun hr => by simp [hst, St.running] at hr, heos, hpend⟩

theorem close_keeps_inv {s : State} (hinv : s.Inv) (hi : s.idle = true) :
    ({ ((s.emit .eos).dropFront s.len) with st := .streamClosed } : State).Inv := by
  obtain ⟨hcfg, -, -, -, -, heos, -⟩ := hinv
  have hrun := running_of_idle hi
  have hnew : Event.eos ∉ s.evq := (eosInv_of_not_closed (ne_streamClosed_of_running hrun)).1 heos
  refine ⟨fun _ => hcfg (.inl hrun), nofun, ⟨by simp, nofun⟩, by simp [State.checkedInv], fun _ => ?_, ?_, ?_⟩
  · exact List.drop_length
  · simp [State.eosInv, hnew]
  · simp [State.pendingInv]

theorem step_keeps_inv {s t : State} (hinv : s.Inv) (h : step s = .next t) : t.Inv := by
  cases stepCase_of_step h with
  | reset => exact opReset_inv ..
  | sink => exact sinkMoment_keeps_inv hinv
  | internal hsteps =>
    obtain ⟨⟨op, ops, hrun⟩, -, -⟩ := hsteps
    exact hrun.keeps (fun _ _ => internal_keeps_inv) hinv
  | push b later hi => exact append_keeps_inv b (inv_withHost hinv later s.sink (.inr rfl)) hi
  | close later hi => exact close_keeps_inv (inv_withHost hinv later s.sink (.inr rfl)) hi
  | request later => exact inv_withHost hinv later s.sink (.inr rfl)

/-! ### The order of offsets -/

theorem frameOffsets_append (es es' : List Event) : frameOffsets (es ++ es') = frameOffsets es ++ frameOffsets es' := by
  induction es with
  | nil => rfl
  | cons e es ih => cases e <;> simp [frameOffsets, ih]

theorem eventOffsets_append (es es' : List Event) : eventOffsets (es ++ es') = eventOffsets es ++ eventOffsets es' := by
  induction es with
  | nil => rfl
  | cons e es ih => cases e <;> simp [eventOffsets, ih]

/-- New events carry the offset BASE, and a frame moves BASE past itself (R43, R28 (e)). -/
theorem offsetsInv_append {s t : State} {k : Nat} {es : List Event} (hinv : s.offsetsInv) (hn : t.n = s.n)
    (hbase : t.base.toNat = s.base.toNat + k) (hevq : t.evq = s.evq ++ es)
    (hframe : frameOffsets es = [] ∨ frameOffsets es = [s.base.toNat] ∧ s.n ≤ k)
    (hall : eventOffsets es = [] ∨ eventOffsets es = [s.base.toNat]) : t.offsetsInv := by
  obtain ⟨hapart, hbelow, hrise, hle⟩ := hinv
  simp only [State.offsetsInv, hevq, frameOffsets_append, eventOffsets_append, hn, hbase, List.pairwise_append,
    List.mem_append]
  refine ⟨⟨hapart, ?_, ?_⟩, ?_, ⟨hrise, ?_, ?_⟩, ?_⟩
  · rcases hframe with h | ⟨h, -⟩ <;> simp [h]
  · rcases hframe with h | ⟨h, -⟩
    · simp [h]
    · simpa [h] using hbelow
  · rintro a (ha | ha)
    · exact Nat.le_add_right_of_le (hbelow a ha)
    · rcases hframe with h | ⟨h, hk⟩ <;> simp only [h, List.not_mem_nil, List.mem_singleton] at ha
      omega
  · rcases hall with h | h <;> simp [h]
  · rcases hall with h | h
    · simp [h]
    · simpa [h] using hle
  · rintro a (ha | ha)
    · exact Nat.le_add_right_of_le (hle a ha)
    · rcases hall with h | h <;> simp only [h, List.not_mem_nil, List.mem_singleton] at ha
      omega

/-- BASE as a number, below the wrap (R20, R162). -/
theorem toNat_base_add {s : State} {k : Nat} (hk : k ≤ s.len) (hwrap : s.base.toNat + s.len < 2 ^ 64) :
    (s.base + BitVec.ofNat 64 k).toNat = s.base.toNat + k := by
  rw [BitVec.toNat_add, BitVec.toNat_ofNat]
  omega

theorem offsetsInv_of_same {s t : State} (hinv : s.offsetsInv) (hcfg : t.cfg = s.cfg) (hbase : t.base = s.base)
    (hevq : t.evq = s.evq) : t.offsetsInv := by
  simp only [State.offsetsInv, State.n, hcfg, hbase, hevq]
  exact hinv

theorem step_keeps_offsetsInv {s t : State} (hinv : s.offsetsInv) (hwrap : s.base.toNat + s.len < 2 ^ 64)
    (h : step s = .next t) : t.offsetsInv := by
  cases stepCase_of_step h with
  | reset => exact offsetsInv_of_evq_nil (opReset_evq ..)
  | sink => exact offsetsInv_of_same hinv (by simp) (by simp) (by simp)
  | internal hsteps =>
    obtain ⟨-, hcons, hem⟩ := hsteps
    have hbase := (congrArg BitVec.toNat hcons.base).trans (toNat_base_add hcons.le_len hwrap)
    have hn := hcons.n
    have hevq := hcons.evq
    cases hem with
    | quiet => exact offsetsInv_append hinv hn hbase hevq (.inl rfl) (.inl rfl)
    | loss => exact offsetsInv_append hinv hn hbase hevq (.inl rfl) (.inr rfl)
    | frame => exact offsetsInv_append hinv hn hbase hevq (.inr ⟨rfl, le_rfl⟩) (.inr rfl)
  | push => exact offsetsInv_of_same hinv rfl rfl rfl
  | close later hi =>
    exact offsetsInv_append hinv rfl (toNat_base_add le_rfl hwrap) rfl (.inl rfl) (.inl rfl)
  | request => exact offsetsInv_of_same hinv rfl rfl rfl

/-! ### No step but late requests is missing -/

/-- While running, the invariant puts the block inside the specification (R17, R34). -/
theorem inSpec_of_inv {s : State} (hinv : s.Inv) (hr : s.st.running = true) : s.InSpec := by
  obtain ⟨hcfg, hlen, -⟩ := hinv
  refine ⟨hcfg (.inl hr), (hlen hr).trans ?_⟩
  unfold State.cap
  omega

theorem configured_of_inv {s : State} (hinv : s.Inv) (hr : s.st.running = true) : s.configured = true :=
  (inSpec_of_inv hinv hr).1

theorem exists_opCheck_eq_next {s : State} (hs : s.InSpec) (hst : s.st = .candidate) (hfull : s.n ≤ s.len) :
    ∃ t, opCheck s = .next t := by
  have hn := n_pos_of_configured hs.1
  have hhi : s.n - 2 < s.buf.length := lt_of_lt_of_le (by omega) hfull
  have hlo : s.n - 1 < s.buf.length := lt_of_lt_of_le (by omega) hfull
  exact ⟨_, opCheck_of_candidate hs hst (List.getElem?_eq_getElem hhi) (List.getElem?_eq_getElem hlo)⟩

theorem one_le_len_of_full {s : State} (hc : s.configured = true) (hfull : s.n ≤ s.len) : 1 ≤ s.len :=
  (n_pos_of_configured hc).trans_le hfull

/-- A run of internal operations begins with an internal step. -/
theorem InternalRun.exists_first {s t : State} {op : Op} {ops : List Op} (h : InternalRun s (op :: ops) t) :
    ∃ u, internal s = .next u := by
  cases h with
  | cons _ first _ => exact ⟨_, first⟩

/-- In SEARCHING with N bytes, one operation makes a step (R67, R75). -/
theorem exists_internal_of_searching {s : State} (hs : s.InSpec) (hst : s.st = .searching) (hfull : s.n ≤ s.len) :
    ∃ t, internal s = .next t := by
  by_cases hh : s.headerStands
  · exact ⟨_, (internal_eq_perform 0 (enabledOp_of_headerStands hst hfull hh)).trans
      ((opDetect_follows hs).1 ⟨hst, hfull, hh⟩)⟩
  · cases hf : s.findPreamble with
    | none => exact (internalRun_flush hs hst hfull hh ((findPreamble_eq_none_iff s).1 hf)).exists_first
    | some k =>
      have hk := (findPreamble_eq_some_iff s k).1 hf
      cases k with
      | zero => exact (internalRun_hslide hs hst hfull hh hk).exists_first
      | succ k => exact (internalRun_skip hs hst hfull hh k.succ_pos hk).exists_first

/-- A busy block inside the specification makes its internal step (R75, R141). -/
theorem exists_internal_eq_next {s : State} (hs : s.InSpec) (hcand : s.candidateInv) (hb : s.busy = true) :
    ∃ t, internal s = .next t := by
  have hrun := running_of_busy hb
  cases hst : s.st with
  | searching =>
    have hfull : s.n ≤ s.len := by
      by_contra hlt
      simp [(idle_iff s).2 ⟨hst, Nat.lt_of_not_le hlt⟩, State.busy] at hb
    exact exists_internal_of_searching hs hst hfull
  | candidate =>
    obtain ⟨t, ht⟩ := exists_opCheck_eq_next hs hst (hcand.1 (.inl hst)).1
    exact ⟨t, (internal_of_candidate hst).trans ht⟩
  | validating =>
    have hfull := (hcand.1 (.inr (.inl hst))).1
    by_cases heq : s.calcReg = s.rxReg
    · exact (internalRun_accept_emit hs hst heq hfull).exists_first
    · exact (internalRun_slide hs hst heq (one_le_len_of_full hs.1 hfull)).exists_first
  | emitting =>
    exact ⟨_, (internal_of_emitting hst).trans (opEmit_of_emitting hs (hcand.1 (.inr (.inr hst))).1 hst)⟩
  | streamClosed | cfgFailed | unreset => simp [hst, St.running] at hrun

/-- A frame at the head is its type's header at the head (R45, R46). -/
theorem header_prefix_of_atHead {s : State} {t : FrameType} {payload : List Byte} {chk : Half}
    (h : s.atHead t payload chk = true) : t.header <+: s.buf := by
  have hframe : t.header <+: s.buf.take t.size := by
    rw [(atHead_iff ..).1 h]
    exact List.prefix_append ..
  exact hframe.trans (List.take_prefix ..)

/-- A frame of the configured type at the head is a header match (R52). -/
theorem headerStands_of_atHead {s : State} {t : FrameType} {payload : List Byte} {chk : Half}
    (hc : s.configuredFor t = true) (h : s.atHead t payload chk = true) : s.headerStands := by
  rw [← definitionHeader_prefix_iff_headerStands, definitionHeader_of_configuredFor hc]
  exact header_prefix_of_atHead h

theorem exists_finishJudged_eq_next {s : State} (hs : s.InSpec) (hst : s.st = .validating) (hfull : s.n ≤ s.len) :
    ∃ t, finishJudged s = .next t := by
  by_cases heq : s.calcReg = s.rxReg
  · have hemit := opEmit_of_emitting (s := { s with st := .emitting }) hs hfull rfl
    exact ⟨_, by rw [finishJudged_of_equal heq, (opAccept_follows hs).1 ⟨hst, heq⟩, andThen_next, hemit]⟩
  · exact ⟨_, (finishJudged_of_unequal heq).trans
      (opSlide_of_rejected hs hst heq (one_le_len_of_full hs.1 hfull))⟩

theorem exists_check_eq_next {s : State} (hs : s.InSpec) (hst : s.st = .candidate) (hfull : s.n ≤ s.len) :
    ∃ t, andThen (opCheck s) finishJudged = .next t := by
  obtain ⟨u, hu⟩ := exists_opCheck_eq_next hs hst hfull
  obtain ⟨-, -, -, span, rx, -, -, rfl⟩ := opCheck_eq_next hu
  rw [hu, andThen_next]
  exact exists_finishJudged_eq_next (s := { s with
    calcReg := familyChecksum s.cfg.fam span, rxReg := rx, st := .validating }) hs rfl hfull

/-- The rule of a frame whose bytes are buffered makes all its operations (R112 to R128). -/
theorem exists_frameRule_eq_next {s : State} (hs : s.InSpec) (hr : s.st.running = true) (hfull : s.n ≤ s.len)
    (hh : s.headerStands) : ∃ t, frameRule s = .next t := by
  cases hst : s.st with
  | searching =>
    rw [frameRule_of_searching hst, (opDetect_follows hs).1 ⟨hst, hfull, hh⟩, andThen_next]
    exact exists_check_eq_next (s := { s with st := .candidate }) hs rfl hfull
  | candidate =>
    rw [frameRule_of_candidate hst]
    exact exists_check_eq_next hs hst hfull
  | validating =>
    rw [frameRule_of_validating hst]
    exact exists_finishJudged_eq_next hs hst hfull
  | emitting => exact ⟨_, (frameRule_of_emitting hst).trans (opEmit_of_emitting hs hfull hst)⟩
  | streamClosed | cfgFailed | unreset => simp [hst, St.running] at hr

/-- An idle block takes every request (R61, R100, R102). -/
theorem exists_takeRequest_eq_next {s : State} (hc : s.configured = true) (hi : s.idle = true) :
    ∃ t, takeRequest s = .next t := by
  unfold takeRequest
  split
  · exact ⟨_, rfl⟩
  · exact ⟨_, rfl⟩
  · exact ⟨_, rfl⟩
  next b later _ => exact ⟨_, opPush_of_idle (s := { s with requests := later }) b hc hi⟩
  next later _ => exact ⟨_, opClose_of_idle (s := { s with requests := later }) hc hi⟩

theorem exists_of_resetPresented {s : State} (h : s.resetPresented = true) :
    ∃ fam key later, s.requests = .reset fam key :: later := by
  unfold State.resetPresented at h
  split at h
  next fam key later hreq => exact ⟨fam, key, later, hreq⟩
  next => cases h

/-- A RESET presented, and an event pending, are served in every phase. -/
theorem exists_step_of_presented_or_pending {s : State} (h : s.resetPresented = true ∨ s.pending ≠ none) :
    ∃ t, step s = .next t := by
  cases hreset : s.resetPresented with
  | true =>
    obtain ⟨fam, key, later, hreq⟩ := exists_of_resetPresented hreset
    exact ⟨_, step_of_reset_presented hreq⟩
  | false =>
    rcases h with h | h
    · simp [hreset] at h
    · obtain ⟨e, he⟩ := Option.ne_none_iff_exists'.1 h
      exact ⟨_, step_of_pending hreset he⟩

/-- While running, every state of the invariant has a step. -/
theorem exists_step_of_running {s : State} (hinv : s.Inv) (hr : s.st.running = true) : ∃ t, step s = .next t := by
  by_cases hserved : s.resetPresented = true ∨ s.pending ≠ none
  · exact exists_step_of_presented_or_pending hserved
  · rw [not_or, not_not, Bool.not_eq_true] at hserved
    obtain ⟨hreset, hp⟩ := hserved
    have hs := inSpec_of_inv hinv hr
    obtain ⟨-, -, hcand, -⟩ := hinv
    by_cases hframe : ∀ i, s.fetch = some i → s.configuredFor i.type = false
    · rw [step_eq_operate hframe]
      cases hb : s.busy with
      | true =>
        rw [operate_of_busy hreset hp hb]
        exact exists_internal_eq_next hs hcand hb
      | false =>
        have hi := idle_of_running hr hb
        rw [operate_of_idle hp hi]
        exact exists_takeRequest_eq_next hs.1 hi
    · simp only [not_forall, Bool.not_eq_false] at hframe
      obtain ⟨i, hf, hc⟩ := hframe
      obtain ⟨-, -, hfull, rest, hdec⟩ := (fetch_eq_some_iff s i).1 hf
      have hhead := atHead_of_decode hdec
      rw [step_of_fetch_eq_some hf, exec_of_configuredFor hhead hp hc]
      exact exists_frameRule_eq_next hs hr hfull (headerStands_of_atHead hc hhead)

/-- A PUSH or CLOSE that comes too late: outside the running phase, with no RESET to follow (R62, R101, R103). -/
def State.lateRequest (s : State) (r : Refusal) : Prop :=
  s.st.running = false ∧ nextReset s.requests = none ∧
    ((∃ b later, s.requests = .push b :: later ∧ r = .noStep .push) ∨
     (∃ later, s.requests = .close :: later ∧ r = .noStep .close))

/-- Outside the running phase a step is made, but for a late PUSH or CLOSE. -/
theorem onlyReset_next_or_late {s : State} (hr : s.st.running = false) :
    (∃ t, onlyReset s = .next t) ∨ ∃ r, onlyReset s = .refused r ∧ s.lateRequest r := by
  rcases hreq : s.requests with _ | ⟨_ | b | _ | _, later⟩
  · exact .inl ⟨s, by rw [onlyReset, hreq]⟩
  · exact .inl ⟨_, by rw [onlyReset, hreq]⟩
  · rcases hn : nextReset s.requests with _ | ⟨fam, key, after⟩
    · exact .inr ⟨_, by rw [onlyReset, hreq]; exact awaitReset_of_no_reset hn, hr, hn, .inl ⟨b, later, hreq, rfl⟩⟩
    · exact .inl ⟨_, by rw [onlyReset, hreq]; exact awaitReset_of_nextReset hn⟩
  · rcases hn : nextReset s.requests with _ | ⟨fam, key, after⟩
    · exact .inr ⟨_, by rw [onlyReset, hreq]; exact awaitReset_of_no_reset hn, hr, hn, .inr ⟨later, hreq, rfl⟩⟩
    · exact .inl ⟨_, by rw [onlyReset, hreq]; exact awaitReset_of_nextReset hn⟩
  · exact .inl ⟨_, by rw [onlyReset, hreq]⟩

/-- Under the invariant a step is made, but for a late PUSH or CLOSE. -/
theorem step_next_or_late {s : State} (hinv : s.Inv) :
    (∃ t, step s = .next t) ∨ ∃ r, step s = .refused r ∧ s.lateRequest r := by
  cases hr : s.st.running with
  | true => exact .inl (exists_step_of_running hinv hr)
  | false =>
    by_cases hp : s.pending = none
    · rw [step_of_not_running hp hr]
      exact onlyReset_next_or_late hr
    · exact .inl (exists_step_of_presented_or_pending (.inr hp))

/-! ### Discards -/

/-- A candidate whose CALC and RX differ is no valid frame (R78, R80). -/
theorem not_headValid_of_rejected {s : State} (hchecked : s.checkedInv) (hst : s.st = .validating)
    (hne : s.calcReg ≠ s.rxReg) : ¬ s.headValid := by
  obtain ⟨hcalc, hrx⟩ := hchecked (.inl hst)
  obtain ⟨span, hspan, hsum⟩ := Option.map_eq_some_iff.1 hcalc
  rw [headValid_iff hspan hrx]
  exact fun h => hne (hsum.symm.trans h.2)

/-- In SP both preamble bytes are equal, and no marker begins with them (R50). -/
theorem header_of_sp {t : FrameType} (h : t.family = .sp) :
    loByte t.family.preamble = hiByte t.family.preamble ∧ hiByte t.marker ≠ loByte t.family.preamble := by
  revert h
  cases t <;> decide

/-- In REF the preamble bytes differ (R50). -/
theorem header_of_ref {t : FrameType} (h : t.family = .ref) :
    loByte t.family.preamble ≠ hiByte t.family.preamble := by
  rw [h]
  decide

/-- The header bytes that RESET loads for a type (R17). -/
theorem header_of_configuredFor {s : State} {t : FrameType} (h : s.configuredFor t = true) :
    s.cfg.pre0 = hiByte t.family.preamble ∧ s.cfg.pre1 = loByte t.family.preamble ∧ s.cfg.mark0 = hiByte t.marker ∧
      s.cfg.mark1 = loByte t.marker := by
  rw [((configuredFor_iff s t).1 h).2]
  exact ⟨rfl, rfl, rfl, rfl⟩

theorem family_of_configuredFor {s : State} {t : FrameType} (h : s.configuredFor t = true) : t.family = s.cfg.fam :=
  lookup_family ((configuredFor_iff s t).1 h).1

/-- A full buffer in SEARCHING that does not begin with PRE[0] is skipped or flushed (R70, R71). -/
theorem enabledOp_of_other_head {s : State} (hst : s.st = .searching) (hfull : s.n ≤ s.len)
    (h0 : s.bufByte 0 ≠ some s.cfg.pre0) : s.enabledOp = some .skip ∨ s.enabledOp = some .flush := by
  have hh : ¬ s.headerStands := fun h => h0 h.1
  cases hf : s.findPreamble with
  | none => exact .inr (enabledOp_of_pre0_not_mem hst hfull hh ((findPreamble_eq_none_iff s).1 hf))
  | some k =>
    have hk := (findPreamble_eq_some_iff s k).1 hf
    have hpos : k ≠ 0 := fun h => h0 ((firstPreambleAt_zero_iff s).1 (h ▸ hk))
    have hskip := enabledOp_of_firstPreambleAt hst hfull hh hk
    rw [if_neg hpos] at hskip
    exact .inl hskip

/-- After SLIDE and one more byte, the head of the buffer is PRE[1] and then MARK[0] (R82). -/
theorem head_after_slide {s : State} (b : Byte) (hh : s.headerStands) (r : Reason) (len : Nat) (c x : Half) :
    ((s.takeSyncLoss r len c x 1).append b).bufByte 0 = some s.cfg.pre1 ∧
      ((s.takeSyncLoss r len c x 1).append b).bufByte 1 = some s.cfg.mark0 := by
  obtain ⟨h0, h1, h2, -⟩ := hh
  have hlen := lt_len_of_bufByte h2
  have hshift : ∀ i, i + 1 < s.len → ((s.takeSyncLoss r len c x 1).append b).bufByte i = s.bufByte (1 + i) := by
    intro i hi
    rw [bufByte_append _ _ _ (by rw [State.len_takeSyncLoss]; omega)]
    simp [State.bufByte, Nat.add_comm]
  exact ⟨(hshift 0 (by omega)).trans h1, (hshift 1 (by omega)).trans h2⟩

end Sys2Proof.Machine

namespace Sys2Proof

open Machine

/-- Settles O47: RESET empties the buffer and EVQ, and loads a catalog entry or leaves the running phase. -/
theorem resetEstablishesTheInvariant : Obligations.ResetEstablishesTheInvariant :=
  ⟨by decide, offsetsInv_of_evq_nil rfl, fun fam key s => ⟨opReset_inv fam key s, offsetsInv_of_evq_nil (opReset_evq ..)⟩⟩

/-- Settles O48: RESET, the sink, the requests and every internal operation keep the invariant. -/
theorem stepKeepsTheInvariant : Obligations.StepKeepsTheInvariant := fun _ _ => step_keeps_inv

/-- Settles O49: a new event carries the offset BASE, which a frame leaves N bytes behind. -/
theorem stepKeepsOffsetOrder : Obligations.StepKeepsOffsetOrder := fun _ _ _ => step_keeps_offsetsInv

/-- Settles O50: a step that is not made is refused. -/
theorem nothingFaults : Obligations.NothingFaults := by
  intro s r hinv h
  rcases step_next_or_late hinv with ⟨t, ht⟩ | ⟨x, hx, -⟩
  · rw [ht] at h
    cases h
  · rw [hx] at h
    cases h

/-- Settles O51: what is refused is a late PUSH or CLOSE. -/
theorem onlyLateRequestsAreRefused : Obligations.OnlyLateRequestsAreRefused := by
  intro s r hinv h
  rcases step_next_or_late hinv with ⟨t, ht⟩ | ⟨x, hx, hlate⟩
  · rw [ht] at h
    cases h
  · cases hx.symm.trans h
    exact hlate

/-- Settles O34: FLUSH and SKIP stop before the first PRE[0]; HSLIDE and SLIDE drop the head of a frame that failed. -/
theorem discardsPassNoFrameStart : Obligations.DiscardsPassNoFrameStart := by
  intro s t b op hinv hop h j hj
  obtain ⟨-, -, hcand, hchecked, -⟩ := hinv
  rcases hop with rfl | rfl | rfl | rfl
  · obtain ⟨-, -, hf, -⟩ := opFlush_eq_next h
    exact .inl fun hb => (findPreamble_eq_none_iff s).1 hf (List.mem_of_getElem? hb)
  · obtain ⟨k, hk, -, -, -, -, rfl⟩ := opSkip_eq_next h
    rw [State.len_takeSyncLoss] at hj
    exact .inl (((findPreamble_eq_some_iff s _).1 hk).2 j (by omega))
  · obtain ⟨hsearch, hm, -, -, -, rfl⟩ := opHslide_eq_next h
    rw [State.len_takeSyncLoss] at hj
    refine .inr ⟨by omega, ((fullSearch_iff s).1 hsearch).2, fun hv => ?_⟩
    simp [hv.1] at hm
  · obtain ⟨hst, hne, -, -, -, rfl⟩ := opSlide_eq_next h
    rw [State.len_takeSyncLoss] at hj
    exact .inr ⟨by omega, (hcand.1 (.inr (.inl hst))).1, not_headValid_of_rejected hchecked hst hne⟩

/-- Settles O35: after SLIDE the buffer begins with PRE[1], which is PRE[0] in SP and is not in REF, and MARK[0]. -/
theorem whatFollowsASlide : Obligations.WhatFollowsASlide := by
  intro s t b hinv h
  obtain ⟨-, hlen, hcand, -⟩ := hinv
  obtain ⟨hst, -, hc, -, hpos, rfl⟩ := opSlide_eq_next h
  obtain ⟨hfull, hm⟩ := hcand.1 (.inr (.inl hst))
  have hle : s.len ≤ s.n := hlen (by rw [hst]; rfl)
  have hmiss : (s.takeSyncLoss .checksumMismatch s.n s.calcReg s.rxReg 1).len + 1 = s.n := by
    rw [State.len_takeSyncLoss]
    omega
  have hn : (s.takeSyncLoss .checksumMismatch s.n s.calcReg s.rxReg 1).n = s.n := by simp [State.n]
  obtain ⟨u, hu⟩ := (configured_iff s).1 hc
  obtain ⟨hpre0, hpre1, hmark0, -⟩ := header_of_configuredFor hu
  obtain ⟨h0, h1⟩ := head_after_slide b ((hdrMatch_iff_headerStands s).1 hm) .checksumMismatch s.n s.calcReg s.rxReg
  have hfull' : ((s.takeSyncLoss .checksumMismatch s.n s.calcReg s.rxReg 1).append b).n ≤
      ((s.takeSyncLoss .checksumMismatch s.n s.calcReg s.rxReg 1).append b).len := by
    rw [State.len_append, hmiss]
    exact hn.le
  have hcfg : ((s.takeSyncLoss .checksumMismatch s.n s.calcReg s.rxReg 1).append b).cfg = s.cfg := by simp
  refine ⟨hmiss.trans hn.symm, fun hfam => ?_, fun hfam => ?_⟩
  · rw [State.takeSyncLoss_cfg] at hfam
    obtain ⟨heq, hne⟩ := header_of_sp ((family_of_configuredFor hu).trans hfam)
    have hfirst : ((s.takeSyncLoss .checksumMismatch s.n s.calcReg s.rxReg 1).append b).firstPreambleAt 0 := by
      rw [firstPreambleAt_zero_iff, h0, hcfg, hpre0, hpre1, heq]
    refine enabledOp_of_firstPreambleAt rfl hfull' (fun hh => hne ?_) hfirst
    have hmark := h1.symm.trans hh.2.1
    rw [hcfg, hmark0, hpre1] at hmark
    exact Option.some.inj hmark
  · rw [State.takeSyncLoss_cfg] at hfam
    refine enabledOp_of_other_head rfl hfull' fun hb => ?_
    rw [h0, hcfg, hpre0, hpre1] at hb
    exact header_of_ref ((family_of_configuredFor hu).trans hfam) (Option.some.inj hb)

end Sys2Proof
end

section
/-! PROOF. The rules of the 17 frame types (45_frames_short_preamble.md R112 to R127, 46_frame_reference_unit.md R128): one
proof for every catalog entry, from which the rule of each type follows by its constants; and the frames of other types
(30_encoding.md R53). -/

namespace Sys2Proof.Machine

/-! ### A frame at the head of the buffer -/

/-- The buffer that begins with a frame: header, payload, checksum field, and what follows (R45, R46). -/
theorem buf_eq_of_atHead {s : State} {t : FrameType} {payload : List Byte} {chk : Half}
    (h : s.atHead t payload chk = true) :
    s.buf = (t.header ++ payload) ++ hiByte chk :: loByte chk :: s.buf.drop t.size := by
  conv_lhs => rw [← List.take_append_drop t.size s.buf, (atHead_iff ..).1 h]
  simp [encodeFrame]

section
variable {s : State} {t : FrameType} {payload : List Byte} {chk : Half} (hpay : payload.length = t.payloadLen)
  (h : s.atHead t payload chk = true)
include hpay

theorem header_append_payload_length : (t.header ++ payload).length = t.size - 2 := by
  have hsize := t.payloadLen_add_six
  simp only [List.length_append, FrameType.header, List.length_cons, List.length_nil, hpay]
  omega

include h

theorem size_le_len_of_atHead : t.size ≤ s.len := by
  have hlen := congrArg List.length ((atHead_iff ..).1 h)
  rw [encodeFrame_length hpay, List.length_take] at hlen
  exact min_eq_left_iff.1 hlen

theorem take_of_atHead : s.buf.take (t.size - 2) = t.header ++ payload := by
  rw [buf_eq_of_atHead h, ← header_append_payload_length hpay, List.take_left]

theorem chk_of_atHead : s.bufByte (t.size - 2) = some (hiByte chk) ∧ s.bufByte (t.size - 1) = some (loByte chk) := by
  have hlen := header_append_payload_length hpay
  have hsize := t.size_bounds.1
  rw [State.bufByte, State.bufByte, buf_eq_of_atHead h, List.getElem?_append_right hlen.le,
    List.getElem?_append_right (by omega), hlen, Nat.sub_self, show t.size - 1 - (t.size - 2) = 1 by omega]
  exact ⟨rfl, rfl⟩

end

/-! ### The operations of a frame's rule -/

/-- What CHECK computes from the bytes at the head (R77, R80). -/
def State.headChecksum (s : State) : Half :=
  familyChecksum s.cfg.fam ((s.buf.take (s.n - 2)).drop s.cfg.spanLo.toNat)

/-- The state after DETECT and CHECK of a frame whose checksum field is `chk` (R69, R80). -/
def State.afterCheck (s : State) (chk : Half) : State :=
  { s with calcReg := s.headChecksum, rxReg := chk, st := .validating }

section
variable {s : State} {t : FrameType} {payload : List Byte} {chk : Half} (hs : s.InSpec)
  (hc : s.configuredFor t = true) (hpay : payload.length = t.payloadLen) (h : s.atHead t payload chk = true)
include hc hpay h

theorem n_le_len_of_atHead : s.n ≤ s.len := by
  rw [n_of_configuredFor hc]
  exact size_le_len_of_atHead hpay h

/-- The payload of the frame at the head is BUF[4..N-3] (R94). -/
theorem payload_of_atHead : (s.buf.take (s.n - 2)).drop 4 = payload := by
  rw [n_of_configuredFor hc, take_of_atHead hpay h]
  rfl

include hs

theorem opDetect_of_atHead (hst : s.st = .searching) : opDetect s = .next { s with st := .candidate } :=
  (opDetect_follows hs).1 ⟨hst, n_le_len_of_atHead hc hpay h, headerStands_of_atHead hc h⟩

theorem opCheck_of_atHead : opCheck { s with st := .candidate } = .next (s.afterCheck chk) := by
  obtain ⟨hhi, hlo⟩ := chk_of_atHead hpay h
  rw [← n_of_configuredFor hc] at hhi hlo
  rw [opCheck_of_candidate (s := { s with st := .candidate }) hs rfl hhi hlo, be16_hi_lo]
  rfl

/-- With the right checksum field the run is DETECT, CHECK, ACCEPT, EMIT. -/
theorem internalRun_of_valid_frame (hst : s.st = .searching) (heq : s.headChecksum = chk) :
    InternalRun s [.detect, .check, .accept, .emit]
      (({ s.afterCheck chk with st := .emitting }.emit (.frame s.cfg.idx s.base payload chk)).endEpisode s.n) := by
  have hfull := n_le_len_of_atHead hc hpay h
  have hverdict := internalRun_accept_emit (s := s.afterCheck chk) hs rfl heq hfull
  rw [show ((s.afterCheck chk).buf.take ((s.afterCheck chk).n - 2)).drop 4 = payload from
    payload_of_atHead hc hpay h] at hverdict
  exact .of_perform 0 (enabledOp_of_headerStands hst hfull (headerStands_of_atHead hc h))
    (opDetect_of_atHead hs hc hpay h hst) (.of_perform 0 rfl (opCheck_of_atHead hs hc hpay h) hverdict)

/-- With another checksum field the run is DETECT, CHECK, SLIDE. -/
theorem internalRun_of_invalid_frame (hst : s.st = .searching) (hne : s.headChecksum ≠ chk) :
    InternalRun s [.detect, .check, .slide]
      ((s.afterCheck chk).takeSyncLoss .checksumMismatch s.n s.headChecksum chk 1) := by
  have hfull := n_le_len_of_atHead hc hpay h
  have hverdict := internalRun_slide (s := s.afterCheck chk) hs rfl hne (one_le_len_of_full hs.1 hfull)
  exact .of_perform 0 (enabledOp_of_headerStands hst hfull (headerStands_of_atHead hc h))
    (opDetect_of_atHead hs hc hpay h hst) (.of_perform 0 rfl (opCheck_of_atHead hs hc hpay h) hverdict)

end

/-- An internal step of a block that no RESET and no pending event holds up is an operation of the schedule. -/
theorem operate_of_internal {s t : State} (hreset : s.resetPresented = false) (hp : s.pending = none)
    (h : internal s = .next t) : operate s = .next t := by
  rw [operate_of_busy hreset hp (busy_of_internal h), h]

theorem runOps_succ_of_operate {s t : State} (k : Nat) (h : operate s = .next t) : runOps (k + 1) s = runOps k t := by
  rw [runOps, h, andThen_next]

/-- DETECT and CHECK run as the frame's rule, and as two operations of the schedule. -/
theorem frameRule_of_run {s t : State} {ops : List Op} (h : InternalRun s (.detect :: .check :: ops) t)
    (hst : s.st = .searching) : ∃ u, u.st = .validating ∧ InternalRun u ops t ∧ frameRule s = finishJudged u ∧
      (s.pending = none → s.resetPresented = false →
        u.pending = none ∧ u.resetPresented = false ∧ ∀ k, runOps (k + 2) s = runOps k u) := by
  cases h with
  | cons hd first rest =>
    have hdetect := (internal_eq_perform 0 hd).symm.trans first
    obtain ⟨-, -, -, -, rfl⟩ := opDetect_eq_next hdetect
    cases rest with
    | cons hk second rest =>
      have hcheck := (internal_eq_perform 0 hk).symm.trans second
      obtain ⟨-, -, -, span, rx, -, -, rfl⟩ := opCheck_eq_next hcheck
      refine ⟨_, rfl, rest, ?_, fun hp hreset => ⟨hp, hreset, fun k => ?_⟩⟩
      · change opDetect s = _ at hdetect
        change opCheck _ = _ at hcheck
        rw [frameRule_of_searching hst, hdetect, andThen_next, hcheck, andThen_next]
      · rw [runOps_succ_of_operate _ (operate_of_internal hreset hp first)]
        exact runOps_succ_of_operate _ (operate_of_internal (s := { s with st := .candidate }) hreset hp second)

/-- The run that accepts a frame is its rule, and four operations of the schedule (R105). -/
theorem frameRule_of_accepting_run {s t : State} (h : InternalRun s [.detect, .check, .accept, .emit] t)
    (hst : s.st = .searching) : frameRule s = .next t ∧
      (s.pending = none → s.resetPresented = false → runOps 4 s = .next t) := by
  obtain ⟨u, hu, hrun, hrule, hops⟩ := frameRule_of_run h hst
  cases hrun with
  | cons ha third rest =>
    have haccept := (internal_eq_perform 0 ha).symm.trans third
    obtain ⟨-, heq, -, -, rfl⟩ := opAccept_eq_next haccept
    cases rest with
    | cons he fourth rest =>
      have hemit := (internal_eq_perform 0 he).symm.trans fourth
      cases rest
      change opAccept u = _ at haccept
      change opEmit _ = _ at hemit
      refine ⟨?_, fun hp hreset => ?_⟩
      · rw [hrule, finishJudged_of_equal heq, haccept, andThen_next, hemit]
      · obtain ⟨hp', hreset', hskip⟩ := hops hp hreset
        rw [hskip 2, runOps_succ_of_operate _ (operate_of_internal hreset' hp' third)]
        exact runOps_succ_of_operate _ (operate_of_internal (s := { u with st := .emitting }) hreset' hp' fourth)

/-- The run that rejects a frame is its rule, and three operations of the schedule (R105). -/
theorem frameRule_of_rejecting_run {s t : State} (h : InternalRun s [.detect, .check, .slide] t)
    (hst : s.st = .searching) : frameRule s = .next t ∧
      (s.pending = none → s.resetPresented = false → runOps 3 s = .next t) := by
  obtain ⟨u, hu, hrun, hrule, hops⟩ := frameRule_of_run h hst
  cases hrun with
  | cons hd third rest =>
    have hslide := (internal_eq_perform 0 hd).symm.trans third
    obtain ⟨-, hne, -⟩ := opSlide_eq_next hslide
    cases rest
    change opSlide u = _ at hslide
    refine ⟨?_, fun hp hreset => ?_⟩
    · rw [hrule, finishJudged_of_unequal hne, hslide]
    · obtain ⟨hp', hreset', hskip⟩ := hops hp hreset
      rw [hskip 1]
      exact runOps_succ_of_operate _ (operate_of_internal hreset' hp' third)

/-! ### The rule of every catalog entry -/

/-- The registers that the rule of an entry asks for are those of that entry. -/
theorem configuredFor_of_cfg_eq {s : State} {t : FrameType} {key : Half} (hkey : lookup t.family key = some t)
    (hcfg : s.cfg = t.definition key s.refSpanLo) : s.configuredFor t = true := by
  rw [configuredFor_iff, hcfg]
  exact ⟨hkey, rfl⟩

theorem headChecksum_of_configuredFor {s : State} {t : FrameType} (hc : s.configuredFor t = true) :
    s.headChecksum = familyChecksum t.family ((s.buf.take (t.size - 2)).drop (t.spanLo s.refSpanLo).toNat) := by
  rw [State.headChecksum, n_of_configuredFor hc, spanLo_of_configuredFor hc, family_of_configuredFor hc]

/-- The rule of a catalog entry under the key that selects it (R112 to R128). -/
theorem frameRule_of_entry (t : FrameType) (key : State → Half) (hkey : ∀ s, lookup t.family (key s) = some t) :
    FrameRule t.instr (fun s => t.definition (key s) s.refSpanLo) t.size (fun s => (t.spanLo s.refSpanLo).toNat)
      (familyChecksum t.family) := by
  intro s payload chk hcfg hst hp hlen hpay hbuf computed frame loss emitted slid
  have hc := configuredFor_of_cfg_eq (hkey s) hcfg
  have hs : s.InSpec := ⟨(configured_iff s).2 ⟨t, hc⟩, by rw [State.cap, n_of_configuredFor hc]; exact hlen⟩
  have hat : s.atHead t payload chk = true := (atHead_iff ..).2 hbuf
  have hcomputed : s.headChecksum = computed := headChecksum_of_configuredFor hc
  have hn := n_of_configuredFor hc
  have hidx : s.cfg.idx = t.idx := by rw [hcfg]; rfl
  have hexec : exec (t.instr payload chk) s = frameRule s :=
    exec_of_configuredFor (by simpa using hat) hp (by simpa using hc)
  have hemitted : (({ s.afterCheck chk with st := .emitting }.emit
      (.frame s.cfg.idx s.base payload chk)).endEpisode s.n) = emitted := by
    simp [State.afterCheck, State.emit, State.endEpisode, State.dropFront, emitted, frame, hcomputed, hn, hidx, hst,
      FrameType.definition]
  have hslid : (s.afterCheck chk).takeSyncLoss .checksumMismatch s.n s.headChecksum chk 1 = slid := by
    simp [State.afterCheck, State.takeSyncLoss, State.raiseSyncLoss, Reason.reported, State.emit, State.dropFront, slid,
      loss, hcomputed, hn, hst]
  have haccepting := fun heq : computed = chk =>
    frameRule_of_accepting_run (internalRun_of_valid_frame hs hc hpay hat hst (hcomputed.trans heq)) hst
  have hrejecting := fun hne : computed ≠ chk =>
    frameRule_of_rejecting_run (internalRun_of_invalid_frame hs hc hpay hat hst (hcomputed ▸ hne)) hst
  rw [hexec]
  refine ⟨fun heq => ?_, fun hne => ?_, fun hreset => ?_⟩
  · rw [← hemitted]
    exact (haccepting heq).1
  · rw [← hslid]
    exact (hrejecting hne).1
  · by_cases heq : computed = chk
    · rw [if_pos heq, (haccepting heq).1, (haccepting heq).2 hp hreset]
    · rw [if_neg heq, (hrejecting heq).1, (hrejecting heq).2 hp hreset]

/-- The rule of a short-preamble entry, whose key is its marker (R16). -/
theorem frameRule_of_sp_entry (t : FrameType) (h : t.family = .sp) :
    FrameRule t.instr (fun s => t.definition t.marker s.refSpanLo) t.size (fun s => (t.spanLo s.refSpanLo).toNat)
      (familyChecksum t.family) :=
  frameRule_of_entry t (fun _ => t.marker) fun _ => by
    rw [h]
    exact lookup_sp_eq_some_iff.2 ⟨h, rfl⟩

/-! ### An instruction as operations -/

theorem runOps_one (s : State) : runOps 1 s = operate s := by
  rw [runOps]
  cases operate s <;> rfl

/-- A sequence that begins with the scheduled operation takes one operation more than what follows it. -/
theorem exists_runOps_of_andThen {s : State} {f : State → Result} {m : Nat}
    (h : ∀ u, operate s = .next u → ∃ k, 1 ≤ k ∧ k ≤ m ∧ runOps k u = f u) :
    ∃ k, 1 ≤ k ∧ k ≤ m + 1 ∧ runOps k s = andThen (operate s) f := by
  cases ho : operate s with
  | next u =>
    obtain ⟨k, -, hk, hrun⟩ := h u ho
    exact ⟨k + 1, Nat.le_add_left .., Nat.succ_le_succ hk, by rw [runOps_succ_of_operate k ho, hrun, andThen_next]⟩
  | fault r => exact ⟨1, le_rfl, Nat.le_add_left .., by rw [runOps_one, ho, andThen_fault]⟩
  | refused r => exact ⟨1, le_rfl, Nat.le_add_left .., by rw [runOps_one, ho, andThen_refused]⟩

/-- Between CANDIDATE and EMITTING the scheduled operation is the internal one. -/
theorem operate_of_judging {s : State} (hp : s.pending = none) (hreset : s.resetPresented = false)
    (hr : s.st.running = true) (hst : s.st ≠ .searching) : operate s = internal s := by
  refine operate_of_busy hreset hp ?_
  simp [State.busy, State.idle, hr, hst]

theorem exists_runOps_eq_opEmit {s : State} (hp : s.pending = none) (hreset : s.resetPresented = false)
    (hst : s.st = .emitting) : ∃ k, 1 ≤ k ∧ k ≤ 1 ∧ runOps k s = opEmit s := by
  refine ⟨1, le_rfl, le_rfl, ?_⟩
  rw [runOps_one, operate_of_judging hp hreset (by rw [hst]; rfl) (by simp [hst]), internal_of_emitting hst]

theorem exists_runOps_eq_finishJudged {s : State} (hp : s.pending = none) (hreset : s.resetPresented = false)
    (hst : s.st = .validating) : ∃ k, 1 ≤ k ∧ k ≤ 2 ∧ runOps k s = finishJudged s := by
  have hop : operate s = internal s := operate_of_judging hp hreset (by rw [hst]; rfl) (by simp [hst])
  by_cases heq : s.calcReg = s.rxReg
  · rw [internal_of_accepted hst heq] at hop
    rw [finishJudged_of_equal heq, ← hop]
    refine exists_runOps_of_andThen fun u hu => ?_
    obtain ⟨-, -, -, -, rfl⟩ := opAccept_eq_next (hop.symm.trans hu)
    exact exists_runOps_eq_opEmit (s := { s with st := .emitting }) hp hreset rfl
  · rw [internal_of_rejected hst heq] at hop
    exact ⟨1, le_rfl, by decide, by rw [runOps_one, hop, finishJudged_of_unequal heq]⟩

theorem exists_runOps_eq_check {s : State} (hp : s.pending = none) (hreset : s.resetPresented = false)
    (hst : s.st = .candidate) : ∃ k, 1 ≤ k ∧ k ≤ 3 ∧ runOps k s = andThen (opCheck s) finishJudged := by
  have hop : operate s = opCheck s := by
    rw [operate_of_judging hp hreset (by rw [hst]; rfl) (by simp [hst]), internal_of_candidate hst]
  rw [← hop]
  refine exists_runOps_of_andThen fun u hu => ?_
  obtain ⟨-, -, -, span, rx, -, -, rfl⟩ := opCheck_eq_next (hop.symm.trans hu)
  exact exists_runOps_eq_finishJudged (s := { s with
    calcReg := familyChecksum s.cfg.fam span, rxReg := rx, st := .validating }) hp hreset rfl

/-- A frame's rule is one to four operations of the schedule, also where one of them stops (R104, R105). -/
theorem exists_runOps_eq_frameRule {s : State} (hp : s.pending = none) (hreset : s.resetPresented = false)
    (hr : s.st.running = true) (hfull : s.n ≤ s.len) (hh : s.headerStands) :
    ∃ k, 1 ≤ k ∧ k ≤ 4 ∧ runOps k s = frameRule s := by
  cases hst : s.st with
  | searching =>
    have hop : operate s = opDetect s := by
      rw [operate_of_busy hreset hp (busy_of_n_le_len hr hfull),
        internal_eq_perform 0 (enabledOp_of_headerStands hst hfull hh), perform]
    rw [frameRule_of_searching hst, ← hop]
    refine exists_runOps_of_andThen fun u hu => ?_
    obtain ⟨-, -, -, -, rfl⟩ := opDetect_eq_next (hop.symm.trans hu)
    exact exists_runOps_eq_check (s := { s with st := .candidate }) hp hreset rfl
  | candidate =>
    obtain ⟨k, hk, hle, hrun⟩ := exists_runOps_eq_check hp hreset hst
    exact ⟨k, hk, hle.trans (by decide), hrun.trans (frameRule_of_candidate hst).symm⟩
  | validating =>
    obtain ⟨k, hk, hle, hrun⟩ := exists_runOps_eq_finishJudged hp hreset hst
    exact ⟨k, hk, hle.trans (by decide), hrun.trans (frameRule_of_validating hst).symm⟩
  | emitting =>
    obtain ⟨k, hk, hle, hrun⟩ := exists_runOps_eq_opEmit hp hreset hst
    exact ⟨k, hk, hle.trans (by decide), hrun.trans (frameRule_of_emitting hst).symm⟩
  | streamClosed | cfgFailed | unreset => simp [hst, St.running] at hr

/-! ### Frames of other types -/

theorem configuredFor_unique {s : State} {t u : FrameType} (ht : s.configuredFor t = true)
    (hu : s.configuredFor u = true) : t = u :=
  Option.some.inj (((configuredFor_iff s t).1 ht).1.symm.trans ((configuredFor_iff s u).1 hu).1)

/-- The header of another type is not the configured one (R53). -/
theorem not_headerStands_of_other_header {s : State} {t u : FrameType} (hc : s.configuredFor t = true) (hne : t ≠ u)
    (h : u.header <+: s.buf) : ¬ s.headerStands := by
  rw [← definitionHeader_prefix_iff_headerStands, definitionHeader_of_configuredFor hc]
  exact fun hown => hne (FrameType.header_injective ((List.prefix_of_prefix_length_le hown h le_rfl).eq_of_length rfl))

/-- A discard sets LOST and reports no frame (R73, R139). -/
theorem discard_effect (s : State) (r : Reason) (len : Nat) (c x : Half) (k : Nat) :
    frameOffsets (s.takeSyncLoss r len c x k).evq = frameOffsets s.evq ∧ (s.takeSyncLoss r len c x k).lost = true := by
  refine ⟨?_, rfl⟩
  rw [State.takeSyncLoss_evq]
  split
  · rw [frameOffsets_append]
    exact List.append_nil _
  · rfl

end Sys2Proof.Machine

namespace Sys2Proof

open Machine

/-- Settles O36: the rule of an entry with the constants of each type. -/
theorem framesA1ToMGFollowTheirRules : Obligations.FramesA1ToMGFollowTheirRules :=
  ⟨frameRule_of_sp_entry .A1 rfl, frameRule_of_sp_entry .A2 rfl, frameRule_of_sp_entry .S0 rfl,
    frameRule_of_sp_entry .S1 rfl, frameRule_of_sp_entry .SH rfl, frameRule_of_sp_entry .E3 rfl,
    frameRule_of_sp_entry .SA rfl, frameRule_of_sp_entry .MG rfl⟩

/-- Settles O37: the rule of an entry with the constants of each type. -/
theorem framesz1ToFMFollowTheirRules : Obligations.Framesz1ToFMFollowTheirRules :=
  ⟨frameRule_of_sp_entry .z1 rfl, frameRule_of_sp_entry .s1 rfl, frameRule_of_sp_entry .a2 rfl,
    frameRule_of_sp_entry .e1 rfl, frameRule_of_sp_entry .e2 rfl, frameRule_of_sp_entry .id rfl,
    frameRule_of_sp_entry .sd rfl, frameRule_of_sp_entry .FM rfl⟩

/-- Settles O38: the rule of the entry REF, which every key selects. -/
theorem frameREFFollowsItsRule : Obligations.FrameREFFollowsItsRule :=
  frameRule_of_entry .REF (fun s => s.cfg.key) fun _ => rfl

/-- Settles O40: the instruction is the frame's rule from the operation ST names. -/
theorem frameIsItsOperations : Obligations.FrameIsItsOperations := by
  intro i s hwf hc hat hr hp hreset
  rw [exec_of_configuredFor hat hp hc]
  exact exists_runOps_eq_frameRule hp hreset hr (n_le_len_of_atHead hc (beq_iff_eq.1 hwf) hat)
    (headerStands_of_atHead hc hat)

/-- Settles O41: another type's header fails the header test, and its first byte is PRE[0] exactly within the family. -/
theorem otherTypesAreGarbage : Obligations.OtherTypesAreGarbage := by
  intro i t s hc hne hat hst hfull hcap hp
  have hs : s.InSpec := ⟨(configured_iff s).2 ⟨t, hc⟩, hcap⟩
  have hother : s.configuredFor i.type = false :=
    Bool.eq_false_of_not_eq_true fun h => hne (configuredFor_unique hc h)
  have hh := not_headerStands_of_other_header hc hne (header_prefix_of_atHead hat)
  have h0 : s.bufByte 0 = some (hiByte i.type.family.preamble) :=
    List.prefix_iff_getElem?.1 (header_prefix_of_atHead hat) 0 (by simp [FrameType.header])
  obtain ⟨hpre0, -⟩ := header_of_configuredFor hc
  obtain ⟨u, hu⟩ := exists_internal_of_searching hs hst hfull
  rw [exec_of_not_configuredFor hat hp hother]
  by_cases hfam : t.family = i.type.family
  · have hk : s.firstPreambleAt 0 := (firstPreambleAt_zero_iff s).2 (by rw [h0, hpre0, hfam])
    have hslide : opHslide s = .next u :=
      (internal_eq_perform 0 (enabledOp_of_firstPreambleAt hst hfull hh hk)).symm.trans hu
    obtain ⟨-, -, -, -, -, rfl⟩ := opHslide_eq_next hslide
    obtain ⟨hframes, hlost⟩ := discard_effect s .headerMismatch 1 0 0 1
    exact ⟨_, hu, hframes, hlost, fun _ => hslide, fun h => absurd hfam h⟩
  · have hbyte : s.bufByte 0 ≠ some s.cfg.pre0 := by
      rw [h0, hpre0]
      intro h
      revert hfam h
      cases t.family <;> cases i.type.family <;> decide
    rcases enabledOp_of_other_head hst hfull hbyte with he | he
    · have hskip : opSkip s = .next u := (internal_eq_perform 0 he).symm.trans hu
      obtain ⟨k, -, -, -, -, -, rfl⟩ := opSkip_eq_next hskip
      obtain ⟨hframes, hlost⟩ := discard_effect s .skipped (k + 1) 0 0 (k + 1)
      exact ⟨_, hu, hframes, hlost, fun h => absurd h hfam, fun _ => .inl hskip⟩
    · have hflush : opFlush s = .next u := (internal_eq_perform 0 he).symm.trans hu
      obtain ⟨-, -, -, -, -, rfl⟩ := opFlush_eq_next hflush
      obtain ⟨hframes, hlost⟩ := discard_effect s .noPreamble s.len 0 0 s.len
      exact ⟨_, hu, hframes, hlost, fun h => absurd h hfam, fun _ => .inr hflush⟩

end Sys2Proof
end

section
/-! PROOF. Progress (41_synchronizer.md R75, 44_packet_stream.md R104): every internal operation brings the block nearer to
idleness, so PUSH* completes for every byte (60_exceptions.md R141). -/

namespace Sys2Proof.Machine

/-! ### The measure -/

theorem St.stage_le_three (st : St) : st.stage ≤ 3 := by
  cases st <;> decide

theorem work_of_busy {s : State} (h : s.busy = true) : s.work = 4 * (s.len + 1 - s.n) - s.st.stage := if_pos h

theorem work_of_not_busy {s : State} (h : s.busy = false) : s.work = 0 := by
  simp [State.work, h]

theorem work_le (s : State) : s.work ≤ 4 * (s.len + 1 - s.n) - s.st.stage := by
  unfold State.work
  split
  · exact le_rfl
  · exact Nat.zero_le _

/-- A busy block holds a whole frame's bytes (R28 (b), R104). -/
theorem n_le_len_of_busy {s : State} (hcand : s.candidateInv) (hb : s.busy = true) : s.n ≤ s.len := by
  have hr := running_of_busy hb
  cases hst : s.st with
  | searching =>
    by_contra hlt
    have hi := (idle_iff s).2 ⟨hst, Nat.lt_of_not_le hlt⟩
    simp [busy_eq_false_of_idle hi] at hb
  | candidate => exact (hcand.1 (.inl hst)).1
  | validating => exact (hcand.1 (.inr (.inl hst))).1
  | emitting => exact (hcand.1 (.inr (.inr hst))).1
  | streamClosed | cfgFailed | unreset => simp [hst, St.running] at hr

/-- The measure is 0 exactly when no internal operation is enabled. -/
theorem work_eq_zero_iff {s : State} (hcand : s.candidateInv) : s.work = 0 ↔ s.busy = false := by
  refine ⟨fun h => ?_, work_of_not_busy⟩
  by_contra hb
  rw [Bool.not_eq_false] at hb
  rw [work_of_busy hb] at h
  have hfull := n_le_len_of_busy hcand hb
  have hstage := s.st.stage_le_three
  omega

/-- An internal operation goes on towards the verdict, or it shortens the buffer (R75). -/
theorem internal_advances {s t : State} (h : internal s = .next t) :
    t.len = s.len ∧ t.st.stage = s.st.stage + 1 ∨ t.len < s.len ∧ t.st.stage = 0 := by
  have hdiscard : ∀ {r : Reason} {len k : Nat} {c x : Half}, 0 < k → k ≤ s.len →
      (s.takeSyncLoss r len c x k).len < s.len ∧ (s.takeSyncLoss r len c x k).st.stage = 0 := by
    intro r len k c x hk hle
    rw [State.len_takeSyncLoss]
    exact ⟨by omega, rfl⟩
  rcases internal_eq_next h with h | h | h | h | h | h | h | h
  · obtain ⟨hsearch, -, -, -, rfl⟩ := opDetect_eq_next h
    exact .inl ⟨rfl, by rw [((fullSearch_iff s).1 hsearch).1]; rfl⟩
  · obtain ⟨hsearch, -, -, hc, -, rfl⟩ := opFlush_eq_next h
    exact .inr (hdiscard (one_le_len_of_full hc ((fullSearch_iff s).1 hsearch).2) le_rfl)
  · obtain ⟨k, hk, -, -, -, -, rfl⟩ := opSkip_eq_next h
    exact .inr (hdiscard k.succ_pos (lt_len_of_findPreamble hk).le)
  · obtain ⟨-, -, hk, -, -, rfl⟩ := opHslide_eq_next h
    exact .inr (hdiscard Nat.one_pos (lt_len_of_findPreamble hk))
  · obtain ⟨hst, -, -, span, rx, -, -, rfl⟩ := opCheck_eq_next h
    exact .inl ⟨rfl, by rw [hst]; rfl⟩
  · obtain ⟨hst, -, -, -, rfl⟩ := opAccept_eq_next h
    exact .inl ⟨rfl, by rw [hst]; rfl⟩
  · obtain ⟨-, -, -, -, hpos, rfl⟩ := opSlide_eq_next h
    exact .inr (hdiscard Nat.one_pos hpos)
  · obtain ⟨-, hc, -, hfull, payload, -, rfl⟩ := opEmit_eq_next h
    refine .inr ⟨?_, rfl⟩
    rw [State.len_endEpisode, State.len_emit]
    exact Nat.sub_lt (one_le_len_of_full hc hfull) (n_pos_of_configured hc)

theorem work_lt_of_internal {s t : State} (hcand : s.candidateInv) (h : internal s = .next t) : t.work < s.work := by
  have hb := busy_of_internal h
  have hfull := n_le_len_of_busy hcand hb
  have hstage := s.st.stage_le_three
  obtain ⟨k, es, hcons, -, -⟩ := exists_consumes_of_internal h
  have hle := work_le t
  rw [hcons.n] at hle
  rw [work_of_busy hb]
  rcases internal_advances h with ⟨hlen, hst⟩ | ⟨hlen, hst⟩
  · rw [hlen, hst] at hle
    omega
  · rw [hst] at hle
    omega

/-! ### Runs to idleness -/

/-- Inside the specification, at most `work` internal operations lead to idleness (R75, R104). -/
theorem exists_internalRun_to_idle {s : State} {k : Nat} (hs : s.InSpec) (hcand : s.candidateInv)
    (hr : s.st.running = true) (hk : s.work ≤ k) :
    ∃ ops t, InternalRun s ops t ∧ t.idle = true ∧ ops.length ≤ k := by
  induction k generalizing s with
  | zero =>
    have hi := idle_of_running hr ((work_eq_zero_iff hcand).1 (Nat.le_zero.1 hk))
    exact ⟨[], s, .nil s, hi, le_rfl⟩
  | succ k ih =>
    cases hb : s.busy with
    | false => exact ⟨[], s, .nil s, idle_of_running hr hb, Nat.zero_le _⟩
    | true =>
      obtain ⟨u, hu⟩ := exists_internal_eq_next hs hcand hb
      obtain ⟨op, hop⟩ := exists_enabledOp_of_busy hb
      obtain ⟨j, es, hcons, -, hrun⟩ := exists_consumes_of_internal hu
      have hspec : u.InSpec := by
        obtain ⟨hc, hcap⟩ := hs
        refine ⟨hcons.configured.trans hc, ?_⟩
        rw [State.cap, hcons.n, hcons.len]
        exact (Nat.sub_le ..).trans hcap
      have hwork : u.work ≤ k := Nat.le_of_lt_succ ((work_lt_of_internal hcand hu).trans_le hk)
      obtain ⟨ops, t, hrest, hi, hlen⟩ := ih hspec (internal_keeps_candidateInv hcand hu) hrun hwork
      exact ⟨op :: ops, t, .cons hop hu hrest, hi, Nat.succ_le_succ hlen⟩

/-- Under the invariant PUSH* of an idle block completes, in a run of internal operations after the PUSH (R105). -/
theorem exists_pushStar {s : State} (b : Byte) (hinv : s.Inv) (hi : s.idle = true) :
    ∃ ops t, InternalRun (s.append b) ops t ∧ t.idle = true ∧ ops.length ≤ 4 ∧ pushStar b s = .next t := by
  have hc := configured_of_inv hinv (running_of_idle hi)
  have hinv' := append_keeps_inv b hinv hi
  have hr : (s.append b).st.running = true := running_of_idle (s := s) hi
  have hs := inSpec_of_inv hinv' hr
  obtain ⟨-, hlen, hcand, -⟩ := hinv'
  have hle := hlen hr
  have hwork : (s.append b).work ≤ 4 := (work_le _).trans (by omega)
  obtain ⟨ops, t, hrun, hidle, hops⟩ := exists_internalRun_to_idle hs hcand hr hwork
  exact ⟨ops, t, hrun, hidle, hops, (pushStar_of_internalRun hc hi hrun hops hidle).1⟩

/-- PUSH advances the stream position by one byte (R28 (d)). -/
theorem position_append (s : State) (b : Byte) : (s.append b).position = s.position + 1 := by
  rw [State.position, State.position, State.append_base, State.len_append, BitVec.ofNat_add, BitVec.add_assoc]
  rfl

/-- Internal operations keep the configuration and the stream position. -/
theorem InternalRun.cfg_and_position {s t : State} {ops : List Op} (h : InternalRun s ops t) :
    t.cfg = s.cfg ∧ t.position = s.position :=
  h.keeps (P := fun u => u.cfg = s.cfg ∧ u.position = s.position) (fun _ _ hu hint => by
    obtain ⟨k, es, hcons, -⟩ := exists_consumes_of_internal hint
    exact ⟨hcons.cfg.trans hu.1, hcons.position.trans hu.2⟩) ⟨rfl, rfl⟩

theorem InternalRun.keeps_inv {s t : State} {ops : List Op} (h : InternalRun s ops t) (hinv : s.Inv) : t.Inv :=
  h.keeps (fun _ _ => internal_keeps_inv) hinv

theorem feed_cons_of_pushStar {b : Byte} {bs : List Byte} {s t : State} (h : pushStar b s = .next t) :
    feed (b :: bs) s = feed bs t := by
  rw [feed, h, andThen_next]

end Sys2Proof.Machine

namespace Sys2Proof

open Machine

/-- Settles O27: the measure goes down with every operation, and at 0 a running block is idle. -/
theorem internalOperationsMakeProgress : Obligations.InternalOperationsMakeProgress := by
  intro s hcand
  have hbound : s.busy = true → s.work ≤ 4 * (s.len - s.n + 1) := by
    intro hb
    have hfull := n_le_len_of_busy hcand hb
    exact (work_le s).trans (by omega)
  refine ⟨fun t h => ⟨work_lt_of_internal hcand h, hbound (busy_of_internal h),
    work_eq_zero_iff (internal_keeps_candidateInv hcand h)⟩, fun hs hb => ?_⟩
  obtain ⟨ops, u, hrun, hi, hops⟩ := exists_internalRun_to_idle hs hcand (running_of_busy hb) (hbound hb)
  exact ⟨u, hrun.drain_eq hi hops, hi⟩

/-- Settles O29: PUSH* completes for the first byte and leaves an idle state of the invariant for the others. -/
theorem feedAlwaysCompletes : Obligations.FeedAlwaysCompletes := by
  intro bs
  induction bs with
  | nil => exact fun s hinv hi => ⟨s, rfl, hinv, hi, rfl, (BitVec.add_zero _).symm⟩
  | cons b bs ih =>
    intro s hinv hi
    obtain ⟨ops, t, hrun, hidle, -, hpush⟩ := exists_pushStar b hinv hi
    obtain ⟨hcfg, hpos⟩ := hrun.cfg_and_position
    obtain ⟨u, hfeed, hinv', hidle', hcfg', hpos'⟩ := ih t (hrun.keeps_inv (append_keeps_inv b hinv hi)) hidle
    refine ⟨u, (feed_cons_of_pushStar hpush).trans hfeed, hinv', hidle', hcfg'.trans hcfg, ?_⟩
    rw [hpos', hpos, position_append, List.length_cons, Nat.add_comm bs.length, BitVec.ofNat_add, BitVec.add_assoc]
    rfl

end Sys2Proof
end

section
/-! PROOF. Runs of the step machine (10_state.md R26, 40_byte_input.md R63 to R65, 44_packet_stream.md R104, R108): what the
operations do to the block does not depend on the host side, so the steps between two requests lead, with the events
accepted on the way, to the idle state that PUSH* leads to. -/

namespace Sys2Proof.Machine

/-! ### Operations do not depend on the host side -/

/-- What `f` does to the block does not depend on the requests, the pending event and the sink; `P` is how the pending events
of the two blocks are related before and after. -/
def HostFree (P : Option Event → Option Event → Prop) (f : State → Result) : Prop :=
  ∀ (s t : State) (requests : List Request) (pending : Option Event) (sink : List Bool), P s.pending pending →
    f s = .next t → ∃ pending', f (s.withHost requests pending sink) = .next (t.withHost requests pending' sink) ∧
      P t.pending pending'

section
variable {P : Option Event → Option Event → Prop}

theorem HostFree.andThen {f g : State → Result} (hf : HostFree P f) (hg : HostFree P g) :
    HostFree P fun s => andThen (f s) g := by
  intro s t requests pending sink hp h
  obtain ⟨u, hu, hut⟩ := andThen_eq_next h
  obtain ⟨pending', hu', hp'⟩ := hf s u requests pending sink hp hu
  obtain ⟨pending'', ht', hp''⟩ := hg u t requests pending' sink hp' hut
  exact ⟨pending'', by simp only [hu', andThen_next, ht'], hp''⟩

/-- A guard and the specification's bounds do not look at the host side. -/
theorem HostFree.guarded {f : State → Result} {g : State → Bool} (op : Op)
    (hg : ∀ s requests pending sink, g (s.withHost requests pending sink) = g s) (hf : HostFree P f) :
    HostFree P fun s => s.guarded op (g s) (f s) := by
  intro s t requests pending sink hp h
  obtain ⟨hguard, hc, hlen, hres⟩ := guarded_eq_next h
  obtain ⟨pending', ht', hp'⟩ := hf s t requests pending sink hp hres
  exact ⟨pending', (guarded_of ((hg ..).trans hguard) hc hlen).trans ht', hp'⟩

/-- An update of the block that leaves the pending event. -/
theorem HostFree.of_update {f : State → State}
    (hf : ∀ s requests pending sink, f (s.withHost requests pending sink) = (f s).withHost requests pending sink)
    (hpending : ∀ s, (f s).pending = s.pending) : HostFree P fun s => .next (f s) := by
  intro s t requests pending sink hp h
  cases h
  exact ⟨pending, congrArg _ (hf ..), (hpending s).symm ▸ hp⟩

theorem hostFree_opCheck : HostFree P opCheck := by
  intro s t requests pending sink hp h
  obtain ⟨hst, hc, hcap, span, rx, hspan, hrx, rfl⟩ := opCheck_eq_next h
  have hspan' : (s.withHost requests pending sink).span = some span := hspan
  have hrx' : (s.withHost requests pending sink).checksumField = some rx := hrx
  refine ⟨pending, ?_, hp⟩
  refine (guarded_of (s := s.withHost requests pending sink) (beq_iff_eq.2 hst) hc hcap).trans ?_
  rw [hspan', hrx']
  rfl

variable (hP : ∀ p, P p p)
include hP

/-- A sync loss that is reported is pending afterwards whatever was pending before (R144). -/
theorem takeSyncLoss_withHost {s : State} (r : Reason) (len : Nat) (c x : Half) (k : Nat) (requests : List Request)
    {pending : Option Event} (sink : List Bool) (hp : P s.pending pending) :
    ∃ pending', (s.withHost requests pending sink).takeSyncLoss r len c x k =
        (s.takeSyncLoss r len c x k).withHost requests pending' sink ∧ P (s.takeSyncLoss r len c x k).pending pending' := by
  cases hrep : r.reported s.lost with
  | true =>
    refine ⟨some (.syncLoss r s.base (BitVec.ofNat 9 len) c x), ?_, ?_⟩
    · simp [State.takeSyncLoss, State.raiseSyncLoss, State.withHost, State.emit, State.dropFront, hrep]
    · simpa [hrep] using hP _
  | false =>
    refine ⟨pending, ?_, ?_⟩
    · simp [State.takeSyncLoss, State.raiseSyncLoss, State.withHost, State.dropFront, hrep]
    · simpa [hrep] using hp

theorem hostFree_opSkip : HostFree P opSkip := by
  intro s t requests pending sink hp h
  obtain ⟨k, hk, hsearch, hm, hc, hcap, rfl⟩ := opSkip_eq_next h
  obtain ⟨pending', heq, hp'⟩ := takeSyncLoss_withHost hP .skipped (k + 1) 0 0 (k + 1) requests sink hp
  refine ⟨pending', ?_, hp'⟩
  have hk' : (s.withHost requests pending sink).findPreamble = some (k + 1) := hk
  have hguard : ((s.withHost requests pending sink).fullSearch && !(s.withHost requests pending sink).hdrMatch) = true := by
    change (s.fullSearch && !s.hdrMatch) = true
    rw [hsearch, hm]
    rfl
  simp only [opSkip, hk']
  exact (guarded_of hguard hc hcap).trans (congrArg _ heq)

theorem hostFree_opSlide : HostFree P opSlide := by
  intro s t requests pending sink hp h
  obtain ⟨hst, hne, hc, hcap, hpos, rfl⟩ := opSlide_eq_next h
  obtain ⟨pending', heq, hp'⟩ := takeSyncLoss_withHost hP .checksumMismatch s.n s.calcReg s.rxReg 1 requests sink hp
  exact ⟨pending', (opSlide_of_rejected (s := s.withHost requests pending sink) ⟨hc, hcap⟩ hst hne hpos).trans
    (congrArg _ heq), hp'⟩

theorem hostFree_opEmit : HostFree P opEmit := by
  intro s t requests pending sink _ h
  obtain ⟨hst, hc, hcap, hfull, payload, hpayload, rfl⟩ := opEmit_eq_next h
  have hemit := opEmit_of_emitting (s := s.withHost requests pending sink) ⟨hc, hcap⟩ hfull hst
  cases hpayload.symm.trans (payload_eq_some hc ((Nat.sub_le s.n 2).trans hfull))
  exact ⟨_, hemit, hP _⟩

/-- No operation depends on the host side. -/
theorem hostFree_perform (b : Byte) (op : Op) : HostFree P (perform b op) := by
  cases op with
  | push =>
    exact HostFree.guarded (f := fun s => .next (s.append b)) .push (fun _ _ _ _ => rfl)
      (.of_update (fun _ _ _ _ => rfl) fun _ => rfl)
  | close =>
    refine HostFree.guarded
      (f := fun s => .next { ((s.emit .eos).dropFront s.len) with st := .streamClosed }) .close (fun _ _ _ _ => rfl)
      fun s t requests pending sink _ h => ?_
    cases h
    exact ⟨some .eos, rfl, hP _⟩
  | detect =>
    exact HostFree.guarded (f := fun s => .next { s with st := .candidate }) .detect (fun _ _ _ _ => rfl)
      (.of_update (fun _ _ _ _ => rfl) fun _ => rfl)
  | flush =>
    refine HostFree.guarded (f := fun s => .next (s.takeSyncLoss .noPreamble s.len 0 0 s.len)) .flush
      (fun _ _ _ _ => rfl) fun s t requests pending sink hp h => ?_
    cases h
    obtain ⟨pending', heq, hp'⟩ := takeSyncLoss_withHost hP .noPreamble s.len 0 0 s.len requests sink hp
    exact ⟨pending', congrArg _ heq, hp'⟩
  | hslide =>
    refine HostFree.guarded (f := fun s => .next (s.takeSyncLoss .headerMismatch 1 0 0 1)) .hslide
      (fun _ _ _ _ => rfl) fun s t requests pending sink hp h => ?_
    cases h
    obtain ⟨pending', heq, hp'⟩ := takeSyncLoss_withHost hP .headerMismatch 1 0 0 1 requests sink hp
    exact ⟨pending', congrArg _ heq, hp'⟩
  | accept =>
    exact HostFree.guarded (f := fun s => .next { s with st := .emitting }) .accept (fun _ _ _ _ => rfl)
      (.of_update (fun _ _ _ _ => rfl) fun _ => rfl)
  | skip => exact hostFree_opSkip hP
  | check => exact hostFree_opCheck
  | slide => exact hostFree_opSlide hP
  | emit => exact hostFree_opEmit hP

/-- The internal operation is selected by the block alone (R99). -/
theorem hostFree_internal : HostFree P internal := by
  intro s t requests pending sink hp h
  obtain ⟨op, hop⟩ := exists_enabledOp_of_busy (busy_of_internal h)
  rw [internal_eq_perform 0 hop] at h
  obtain ⟨pending', ht', hp'⟩ := hostFree_perform hP 0 op s t requests pending sink hp h
  have hop' : (s.withHost requests pending sink).enabledOp = some op := hop
  exact ⟨pending', (internal_eq_perform 0 hop').trans ht', hp'⟩

theorem hostFree_finishJudged : HostFree P finishJudged := by
  intro s t requests pending sink hp h
  by_cases heq : s.calcReg = s.rxReg
  · rw [finishJudged_of_equal heq] at h
    rw [finishJudged_of_equal (s := s.withHost requests pending sink) heq]
    exact (hostFree_perform hP 0 .accept).andThen (hostFree_opEmit hP) s t requests pending sink hp h
  · rw [finishJudged_of_unequal heq] at h
    rw [finishJudged_of_unequal (s := s.withHost requests pending sink) heq]
    exact hostFree_opSlide hP s t requests pending sink hp h

/-- A frame's rule is made of operations that do not depend on the host side (R112 to R128). -/
theorem hostFree_frameRule : HostFree P frameRule := by
  intro s t requests pending sink hp h
  have hcheck := hostFree_opCheck.andThen (hostFree_finishJudged hP)
  cases hst : s.st with
  | searching =>
    rw [frameRule_of_searching hst] at h
    rw [frameRule_of_searching (s := s.withHost requests pending sink) hst]
    exact (hostFree_perform hP 0 .detect).andThen hcheck s t requests pending sink hp h
  | candidate =>
    rw [frameRule_of_candidate hst] at h
    rw [frameRule_of_candidate (s := s.withHost requests pending sink) hst]
    exact hcheck s t requests pending sink hp h
  | validating =>
    rw [frameRule_of_validating hst] at h
    rw [frameRule_of_validating (s := s.withHost requests pending sink) hst]
    exact hostFree_finishJudged hP s t requests pending sink hp h
  | emitting =>
    rw [frameRule_of_emitting hst] at h
    rw [frameRule_of_emitting (s := s.withHost requests pending sink) hst]
    exact hostFree_opEmit hP s t requests pending sink hp h
  | streamClosed | cfgFailed | unreset =>
    rw [frameRule_of_not_running (by rw [hst]; rfl)] at h
    cases h

end

/-- A run of internal operations is the same run under every host side. -/
theorem InternalRun.withHost {s t : State} {ops : List Op} (h : InternalRun s ops t) (requests : List Request)
    (pending : Option Event) (sink : List Bool) :
    ∃ pending', InternalRun (s.withHost requests pending sink) ops (t.withHost requests pending' sink) := by
  induction h generalizing pending with
  | nil s => exact ⟨pending, .nil _⟩
  | cons enabled first _ ih =>
    obtain ⟨pending', first', -⟩ := hostFree_internal (P := fun _ _ => True) (fun _ => trivial) _ _ requests pending sink
      trivial first
    obtain ⟨pending'', hrest⟩ := ih pending'
    exact ⟨pending'', .cons enabled first' hrest⟩

/-- Internal operations are deterministic: two runs from one state to idleness end alike (R106). -/
theorem InternalRun.end_unique {s t t' : State} {ops ops' : List Op} (h : InternalRun s ops t)
    (h' : InternalRun s ops' t') (ht : t.idle = true) (ht' : t'.idle = true) : t = t' := by
  have hdrain := h.drain_eq ht (Nat.le_max_left ops.length ops'.length)
  rw [h'.drain_eq ht' (Nat.le_max_right ..)] at hdrain
  exact (Host.Outcome.next.inj hdrain).symm

theorem InternalRun.append {s t u : State} {ops ops' : List Op} (h : InternalRun s ops t) (h' : InternalRun t ops' u) :
    InternalRun s (ops ++ ops') u := by
  induction h with
  | nil => exact h'
  | cons enabled first _ ih => exact .cons enabled first (ih h')

/-- Internal operations leave the block running. -/
theorem InternalRun.keeps_running {s t : State} {ops : List Op} (h : InternalRun s ops t)
    (hr : s.st.running = true) : t.st.running = true :=
  h.keeps (P := fun u => u.st.running = true) (fun _ _ _ hint => by
    obtain ⟨-, -, -, -, hrun⟩ := exists_consumes_of_internal hint
    exact hrun) hr

/-- A run of one or more internal operations brings the block nearer to idleness (R75). -/
theorem InternalRun.work_lt {s t : State} {op : Op} {ops : List Op} (h : InternalRun s (op :: ops) t)
    (hcand : s.candidateInv) : t.work < s.work := by
  cases h with
  | cons _ first rest =>
    obtain ⟨-, hlt⟩ := rest.keeps (P := fun u => u.candidateInv ∧ u.work < s.work)
      (fun _ _ ⟨hu, hlt⟩ hint => ⟨internal_keeps_candidateInv hu hint, (work_lt_of_internal hu hint).trans hlt⟩)
      ⟨internal_keeps_candidateInv hcand first, work_lt_of_internal hcand first⟩
    exact hlt

/-! ### Runs of steps -/

theorem run_succ_of_step {s t : State} (k : Nat) (h : step s = .next t) :
    Sys2Proof.core.run (k + 1) s = Sys2Proof.core.run k t := by
  have hstep : Sys2Proof.core.step s = .next t := h
  simp only [Host.Core.run, hstep]

theorem run_add {s t : State} {j k : Nat} (h : Sys2Proof.core.run j s = .next t) :
    Sys2Proof.core.run (j + k) s = Sys2Proof.core.run k t := by
  induction j generalizing s with
  | zero =>
    cases h
    rw [Nat.zero_add]
  | succ j ih =>
    rw [Nat.succ_add]
    cases hs : step s with
    | next u =>
      rw [run_succ_of_step _ hs] at h ⊢
      exact ih h
    | fault r =>
      have hstep : Sys2Proof.core.step s = .fault r := hs
      simp only [Host.Core.run, hstep] at h
      cases h
    | refused r =>
      have hstep : Sys2Proof.core.step s = .refused r := hs
      simp only [Host.Core.run, hstep] at h
      cases h

/-- No RESET stands at the head of the requests. -/
def NoReset (requests : List Request) : Prop := ∀ fam key later, requests ≠ .reset fam key :: later

theorem resetPresented_withHost {requests : List Request} (h : NoReset requests) (s : State) (pending : Option Event)
    (sink : List Bool) : (s.withHost requests pending sink).resetPresented = false := by
  by_contra hreset
  obtain ⟨fam, key, later, hreq⟩ := exists_of_resetPresented (Bool.eq_true_of_not_eq_false hreset)
  exact h fam key later hreq

/-- The sink accepts the event pending after some moments, whatever requests wait (R108). -/
theorem exists_run_to_accepted (s : State) (pending : Option Event) (sink : List Bool) :
    ∃ k left, left <:+ sink ∧ ∀ requests, NoReset requests →
      Sys2Proof.core.run k (s.withHost requests pending sink) = .next (s.withHost requests none left) := by
  cases pending with
  | none => exact ⟨0, sink, List.suffix_rfl, fun _ _ => rfl⟩
  | some e =>
    have hstep : ∀ sink requests, NoReset requests →
        step (s.withHost requests (some e) sink) = .next (s.withHost requests (some e) sink).sinkMoment :=
      fun sink requests hreq => step_of_pending (resetPresented_withHost hreq ..) rfl
    induction sink with
    | nil => exact ⟨1, [], List.suffix_rfl, fun requests hreq => run_succ_of_step 0 (hstep [] requests hreq)⟩
    | cons ready later ih =>
      cases ready with
      | true =>
        exact ⟨1, later, List.suffix_cons .., fun requests hreq => run_succ_of_step 0 (hstep _ requests hreq)⟩
      | false =>
        obtain ⟨k, left, hleft, hrun⟩ := ih
        exact ⟨k + 1, left, hleft.trans (List.suffix_cons ..), fun requests hreq =>
          (run_succ_of_step k (hstep _ requests hreq)).trans (hrun requests hreq)⟩

/-- A step of a busy block with nothing pending is one or more internal operations. -/
theorem internalSteps_of_step {s t : State} (hreset : s.resetPresented = false) (hp : s.pending = none)
    (hb : s.busy = true) (h : step s = .next t) : ∃ k es, InternalSteps s t k es := by
  cases hf : s.fetch with
  | some i =>
    rw [step_of_fetch_eq_some hf] at h
    rcases exec_sink_or_internalSteps h with ⟨⟨e, he⟩, -⟩ | ⟨-, hsteps⟩
    · simp [hp] at he
    · exact hsteps
  | none =>
    rw [step_of_fetch_eq_none hf, operate_of_busy hreset hp hb] at h
    exact InternalSteps.of_internal h

/-- A step of a busy block with nothing pending does not look at the requests that wait. -/
theorem step_withHost_of_busy {s t : State} (hreset : s.resetPresented = false) (hp : s.pending = none)
    (hb : s.busy = true) (h : step s = .next t) {requests : List Request} (hreq : NoReset requests) :
    step (s.withHost requests none s.sink) = .next (t.withHost requests t.pending t.sink) := by
  have hreset' := resetPresented_withHost hreq s none s.sink
  obtain ⟨k, es, -, hcons, -⟩ := internalSteps_of_step hreset hp hb h
  have hsame : ∀ f : State → Result, HostFree Eq f → f s = .next t →
      f (s.withHost requests none s.sink) = .next (t.withHost requests t.pending t.sink) := by
    intro f hf hft
    obtain ⟨pending', ht', hp'⟩ := hf s t requests none s.sink hp hft
    rw [ht', hp', hcons.sink]
  cases hf : s.fetch with
  | some i =>
    obtain ⟨hr, -, hfull, rest, hdec⟩ := (fetch_eq_some_iff s i).1 hf
    have hf' : (s.withHost requests none s.sink).fetch = some i :=
      (fetch_eq_some_iff _ i).2 ⟨hr, hreset', hfull, rest, hdec⟩
    rw [step_of_fetch_eq_some hf] at h
    rw [step_of_fetch_eq_some hf']
    have hat := atHead_of_decode hdec
    cases hc : s.configuredFor i.type with
    | true =>
      rw [exec_of_configuredFor hat hp hc] at h
      rw [exec_of_configuredFor (s := s.withHost requests none s.sink) hat rfl hc]
      exact hsame _ (hostFree_frameRule fun _ => rfl) h
    | false =>
      rw [exec_of_not_configuredFor hat hp hc] at h
      rw [exec_of_not_configuredFor (s := s.withHost requests none s.sink) hat rfl hc]
      exact hsame _ (hostFree_internal fun _ => rfl) h
  | none =>
    have hf' : (s.withHost requests none s.sink).fetch = none := by
      rw [Option.eq_none_iff_forall_ne_some]
      intro i hi
      obtain ⟨hr, -, hfull, hdec⟩ := (fetch_eq_some_iff _ i).1 hi
      rw [(fetch_eq_some_iff s i).2 ⟨hr, hreset, hfull, hdec⟩] at hf
      cases hf
    rw [step_of_fetch_eq_none hf, operate_of_busy hreset hp hb] at h
    rw [step_of_fetch_eq_none hf', operate_of_busy (s := s.withHost requests none s.sink) hreset' rfl hb]
    exact hsame _ (hostFree_internal fun _ => rfl) h

/-- Between two requests the machine goes on to idleness with every event accepted: it ends where the internal operations
end, whatever the sink does and whatever requests wait (R26, R104, R108). -/
theorem exists_run_to_idle (s : State) (hinv : s.Inv) (hr : s.st.running = true) :
    ∃ k d ops left, InternalRun s ops d ∧ d.idle = true ∧ left <:+ s.sink ∧ ∀ requests, NoReset requests →
      Sys2Proof.core.run k (s.withHost requests s.pending s.sink) = .next (d.withHost requests none left) := by
  induction hw : s.work using Nat.strong_induction_on generalizing s with
  | _ w ih =>
    subst hw
    obtain ⟨k0, left0, hleft0, haccepted⟩ := exists_run_to_accepted s s.pending s.sink
    cases hb : s.busy with
    | false => exact ⟨k0, s, [], left0, .nil s, idle_of_running hr hb, hleft0, haccepted⟩
    | true =>
      have hnil : NoReset [] := nofun
      have hinv0 : (s.withHost [] none left0).Inv := inv_withHost hinv [] left0 (.inl rfl)
      have hreset0 := resetPresented_withHost hnil s none left0
      obtain ⟨t, ht⟩ := exists_step_of_running hinv0 hr
      obtain ⟨j, es, ⟨op, ops1, hrun1⟩, hcons, -⟩ := internalSteps_of_step hreset0 rfl hb ht
      have hcand0 : (s.withHost [] none left0).candidateInv := by
        obtain ⟨-, -, hcand, -⟩ := hinv
        exact hcand
      have hwork : t.work < s.work := hrun1.work_lt hcand0
      have hrunning : t.st.running = true := hrun1.keeps_running hr
      obtain ⟨k1, d, ops2, left, hrun2, hidle, hleft, hend⟩ := ih t.work hwork t (step_keeps_inv hinv0 ht) hrunning rfl
      obtain ⟨pending', hrun⟩ := (hrun1.append hrun2).withHost s.requests s.pending s.sink
      refine ⟨k0 + (k1 + 1), d.withHost s.requests pending' s.sink, _, left, hrun, hidle, ?_, fun requests hreq => ?_⟩
      · rw [hcons.sink] at hleft
        exact hleft.trans hleft0
      · have hstep := step_withHost_of_busy hreset0 rfl hb ht hreq
        exact (run_add (haccepted requests hreq)).trans ((run_succ_of_step k1 hstep).trans (hend requests hreq))

/-! ### Requests of an idle block -/

/-- A PUSH is taken by an idle block with nothing pending (R61). -/
theorem step_push {s : State} (b : Byte) (later : List Request) (sink : List Bool) (hinv : s.Inv)
    (hi : s.idle = true) :
    step (s.withHost (.push b :: later) none sink) = .next ((s.append b).withHost later none sink) := by
  have hc := configured_of_inv hinv (running_of_idle hi)
  rw [step_of_idle (s := s.withHost (.push b :: later) none sink) rfl hi]
  exact opPush_of_idle (s := s.withHost later none sink) b hc hi

/-- An empty read changes nothing (R64). -/
theorem step_nothing {s : State} (later : List Request) (sink : List Bool) (hi : s.idle = true) :
    step (s.withHost (.nothing :: later) none sink) = .next (s.withHost later none sink) :=
  step_of_idle (s := s.withHost (.nothing :: later) none sink) rfl hi

theorem noReset_of_forall {requests : List Request} (h : ∀ fam key, Request.reset fam key ∉ requests) :
    NoReset requests := by
  rintro fam key later rfl
  exact h fam key List.mem_cons_self

theorem reset_not_mem_chunkRequests (bs : List Byte) (fam : Family) (key : Half) :
    Request.reset fam key ∉ chunkRequests bs := by
  simp [chunkRequests]

/-- Reads that amount to a chunk hold no RESET. -/
theorem reset_not_mem_reads {reads : List Request} {bs : List Byte}
    (h : (reads.filter fun r => decide (r ≠ .nothing)) = chunkRequests bs) (fam : Family) (key : Half) :
    Request.reset fam key ∉ reads := by
  intro hmem
  refine reset_not_mem_chunkRequests bs fam key ?_
  rw [← h]
  exact List.mem_filter.2 ⟨hmem, rfl⟩

theorem reset_not_mem_last {last : List Request} (h : last = [] ∨ last = [.close]) (fam : Family) (key : Half) :
    Request.reset fam key ∉ last := by
  rcases h with rfl | rfl <;> simp

theorem noReset_append_last {requests last : List Request} (h : ∀ fam key, Request.reset fam key ∉ requests)
    (hlast : last = [] ∨ last = [.close]) : NoReset (requests ++ last) :=
  noReset_of_forall fun fam key hmem =>
    (List.mem_append.1 hmem).elim (h fam key) (reset_not_mem_last hlast fam key)

/-- PUSH* for each byte of a chunk ends in the block that steps of the machine end in, whatever the host sides are. -/
theorem exists_feed_and_run (bs : List Byte) (s : State) (hinv : s.Inv) (hi : s.idle = true)
    (requests : List Request) (pending : Option Event) (sink : List Bool) :
    ∃ u k left, feed bs (s.withHost requests pending sink) = .next u ∧ left <:+ s.sink ∧
      Sys2Proof.core.run k (s.withHost (chunkRequests bs) none s.sink) = .next (u.withHost [] none left) := by
  induction bs generalizing s pending with
  | nil => exact ⟨_, 0, s.sink, rfl, List.suffix_rfl, rfl⟩
  | cons b bs ih =>
    have hc := configured_of_inv hinv (running_of_idle hi)
    have hinv' : ((s.append b).withHost s.requests none s.sink).Inv :=
      inv_withHost (append_keeps_inv b hinv hi) s.requests s.sink (.inl rfl)
    obtain ⟨ops, t, hrun, hidle, hops, -⟩ := exists_pushStar b hinv hi
    obtain ⟨p1, hrun1⟩ := hrun.withHost s.requests none s.sink
    obtain ⟨p2, hrun2⟩ := hrun.withHost requests pending sink
    obtain ⟨k1, d, ops1, left1, hrund, hidled, hleft1, hend⟩ := exists_run_to_idle _ hinv' (running_of_idle (s := s) hi)
    have hd : d = t.withHost s.requests p1 s.sink := hrund.end_unique hrun1 hidled hidle
    have hpush := (pushStar_of_internalRun (s := s.withHost requests pending sink) hc hi hrun2 hops hidle).1
    have hinvd : (t.withHost [] none left1).Inv :=
      inv_withHost (hrun.keeps_inv (append_keeps_inv b hinv hi)) [] left1 (.inl rfl)
    obtain ⟨u, k2, left2, hfeed, hleft2, hrest⟩ := ih (t.withHost [] none left1) hinvd hidle p2
    refine ⟨u, k1 + k2 + 1, left2, (feed_cons_of_pushStar hpush).trans hfeed, hleft2.trans hleft1, ?_⟩
    rw [chunkRequests, List.map_cons, run_succ_of_step _ (step_push b _ s.sink hinv hi)]
    refine (run_add (hend _ (noReset_of_forall (reset_not_mem_chunkRequests bs)))).trans ?_
    rw [hd]
    exact hrest

/-- After the bytes, CLOSE or nothing: every request is taken and every event accepted (R65, R102). -/
theorem exists_run_last {last : List Request} (hlast : last = [] ∨ last = [.close]) {s : State} (hinv : s.Inv)
    (hi : s.idle = true) (sink : List Bool) :
    ∃ k t, Sys2Proof.core.run k (s.withHost last none sink) = .next t ∧ t.requests = [] ∧ t.pending = none ∧
      (last = [] → t.idle = true) ∧ (last = [.close] → t.st = .streamClosed) := by
  rcases hlast with rfl | rfl
  · exact ⟨0, _, rfl, rfl, rfl, fun _ => hi, nofun⟩
  · have hc := configured_of_inv hinv (running_of_idle hi)
    have hclose : step (s.withHost [.close] none sink) =
        .next (({ ((s.emit .eos).dropFront s.len) with st := .streamClosed } : State).withHost [] (some .eos) sink) := by
      rw [step_of_idle (s := s.withHost [.close] none sink) rfl hi]
      exact opClose_of_idle (s := s.withHost [] none sink) hc hi
    obtain ⟨k, left, -, haccepted⟩ := exists_run_to_accepted
      { ((s.emit .eos).dropFront s.len) with st := .streamClosed } (some .eos) sink
    exact ⟨k + 1, _, (run_succ_of_step k hclose).trans (haccepted [] nofun), rfl, rfl, nofun, fun _ => rfl⟩

/-- From an idle block, reads and the chunk they amount to lead to the same state (R63, R64). -/
theorem exists_runs_of_reads (reads : List Request) {last : List Request} (hlast : last = [] ∨ last = [.close])
    (bs : List Byte) (s : State) (hinv : s.Inv) (hi : s.idle = true) (sink : List Bool)
    (hreads : (reads.filter fun r => decide (r ≠ .nothing)) = chunkRequests bs) :
    ∃ j k t, Sys2Proof.core.run j (s.withHost (reads ++ last) none sink) = .next t ∧
      Sys2Proof.core.run k (s.withHost (chunkRequests bs ++ last) none sink) = .next t ∧
      t.requests = [] ∧ t.pending = none ∧ (last = [] → t.idle = true) ∧ (last = [.close] → t.st = .streamClosed) := by
  induction reads generalizing bs s sink with
  | nil =>
    rw [← hreads]
    obtain ⟨k, t, hrun, hend⟩ := exists_run_last hlast hinv hi sink
    exact ⟨k, k, t, hrun, hrun, hend⟩
  | cons r reads ih =>
    have hno := reset_not_mem_reads hreads
    cases r with
    | nothing =>
      obtain ⟨j, k, t, hrun, hend⟩ := ih bs s hinv hi sink (by simpa using hreads)
      exact ⟨j + 1, k, t, (run_succ_of_step j (step_nothing _ sink hi)).trans hrun, hend⟩
    | push b =>
      obtain _ | ⟨c, bs⟩ := bs
      · simp [chunkRequests] at hreads
      · simp only [chunkRequests, List.map_cons, ne_eq, reduceCtorEq, not_false_eq_true, decide_true,
          List.filter_cons_of_pos, List.cons.injEq, Request.push.injEq] at hreads
        obtain ⟨rfl, hreads⟩ := hreads
        have hinv' : ((s.append b).withHost s.requests none sink).Inv :=
          inv_withHost (append_keeps_inv b hinv hi) s.requests sink (.inl rfl)
        obtain ⟨k0, d, ops, left, hrun, hidle, -, hend⟩ := exists_run_to_idle _ hinv' (running_of_idle (s := s) hi)
        obtain ⟨j, k, t, hj, hk, ht⟩ := ih bs d (hrun.keeps_inv hinv') hidle left hreads
        refine ⟨k0 + j + 1, k0 + k + 1, t, ?_, ?_, ht⟩
        · refine (run_succ_of_step _ (step_push b _ sink hinv hi)).trans ?_
          exact (run_add (hend _ (noReset_append_last (fun fam key hmem => hno fam key (.tail _ hmem)) hlast))).trans hj
        · refine (run_succ_of_step _ (step_push b _ sink hinv hi)).trans ?_
          exact (run_add (hend _ (noReset_append_last (reset_not_mem_chunkRequests bs) hlast))).trans hk
    | close =>
      have hmem : Request.close ∈ chunkRequests bs := by simp [← hreads]
      simp [chunkRequests] at hmem
    | reset fam key => exact absurd List.mem_cons_self (hno fam key)

end Sys2Proof.Machine

namespace Sys2Proof

open Machine

/-- Settles O30: the block first becomes idle with its events accepted, which no waiting request changes; from there an
empty read is one step that changes nothing, and each PUSH is the same on both sides. -/
theorem chunkingDoesNotMatter : Obligations.ChunkingDoesNotMatter := by
  intro bs reads last s hinv hr hreads hlast hreq
  obtain ⟨k0, d, ops, left, hrun, hidle, -, hend⟩ := exists_run_to_idle s hinv hr
  obtain ⟨j, k, t, hj, hk, ht⟩ := exists_runs_of_reads reads hlast bs d (hrun.keeps_inv hinv) hidle left hreads
  have hs : s = s.withHost (reads ++ last) s.pending s.sink := by
    rw [← hreq]
    rfl
  refine ⟨k0 + j, k0 + k, t, ?_, ?_, ht⟩
  · rw [hs]
    exact (run_add (hend _ (noReset_append_last (reset_not_mem_reads hreads) hlast))).trans hj
  · exact (run_add (hend _ (noReset_append_last (reset_not_mem_chunkRequests bs) hlast))).trans hk

/-- Settles O31: between two PUSHes the machine goes on to the idle state of PUSH*, with the events accepted. -/
theorem stepsImplementFeed : Obligations.StepsImplementFeed := by
  intro bs s hinv hi hp hreq
  obtain ⟨u, k, left, hfeed, hleft, hrun⟩ := exists_feed_and_run bs s hinv hi s.requests s.pending s.sink
  have hs : s.withHost (chunkRequests bs) none s.sink = s := by
    rw [← hreq, ← hp]
    rfl
  exact ⟨u, k, left, hfeed, hleft, hs ▸ hrun⟩

end Sys2Proof
end

section
/-! PROOF. Byte streams (43_payload_extractor.md R95, 70_reset_and_hazards.md R158): the buffer follows the stream at offset
BASE, no discard passes the start of a valid frame, and garbage before a frame costs at most one SYNCLOSS. -/

namespace Sys2Proof.Machine

/-! ### Valid frames at the head -/

section
variable {s : State} {t : FrameType} {payload : List Byte} {chk : Half} (hc : s.configuredFor t = true)
  (hpay : payload.length = t.payloadLen) (h : s.atHead t payload chk = true)
include hc hpay h

/-- CHECK computes the checksum that the builder of valid frames puts into the field (R57, R58, R77). -/
theorem headChecksum_of_atHead : s.headChecksum = frameChecksum t s.refSpanLo payload := by
  rw [headChecksum_of_configuredFor hc, take_of_atHead hpay h]
  rfl

theorem checksumField_of_atHead : s.checksumField = some chk := by
  obtain ⟨hhi, hlo⟩ := chk_of_atHead hpay h
  rw [← n_of_configuredFor hc] at hhi hlo
  rw [checksumField_eq_some hhi hlo, be16_hi_lo]

/-- A frame with its own checksum at the head is valid (R78). -/
theorem headValid_of_atHead (hchk : frameChecksum t s.refSpanLo payload = chk) : s.headValid := by
  have hconf := (configured_iff s).2 ⟨t, hc⟩
  have hspan := span_eq_some hconf ((Nat.sub_le ..).trans (n_le_len_of_atHead hc hpay h))
  rw [headValid_iff hspan (checksumField_of_atHead hc hpay h)]
  exact ⟨headerStands_of_atHead hc h, (headChecksum_of_atHead hc hpay h).trans hchk⟩

end

/-! ### The buffer follows the stream -/

/-- The buffer holds the bytes `fed` so far from offset BASE on (R20, R28 (d)). -/
structure Follows (fed : List Byte) (s : State) : Prop where
  length : s.base.toNat + s.len = fed.length
  buf : s.buf = fed.drop s.base.toNat

/-- Every valid frame of the stream `bs` that starts below BASE was emitted, or an earlier frame consumed its start. -/
def FramesFound (t : FrameType) (bs : List Byte) (s : State) : Prop :=
  ∀ pos payload, pos < s.base.toNat → ValidFrameAt t s.refSpanLo payload bs pos →
    (∃ off ∈ frameOffsets s.evq, off < pos ∧ pos < off + t.size) ∨
      Event.frame t.idx (BitVec.ofNat 64 pos) payload (frameChecksum t s.refSpanLo payload) ∈ s.evq

/-- What holds while the bytes of the stream `bs` are fed to a block of type `t`. -/
structure Heals (t : FrameType) (r : RefSpanLo) (bs fed : List Byte) (s : State) : Prop where
  inv : s.Inv
  configuredFor : s.configuredFor t = true
  refSpanLo : s.refSpanLo = r
  follows : Follows fed s
  found : FramesFound t bs s

namespace Follows

variable {fed bs : List Byte} {s : State}

theorem append (h : Follows fed s) (b : Byte) : Follows (fed ++ [b]) (s.append b) where
  length := by
    have hlen := h.length
    rw [State.append_base, State.len_append, List.length_append, List.length_singleton]
    omega
  buf := by
    have hlen := h.length
    rw [State.append_buf, State.append_base, List.drop_append_of_le_length (by omega), h.buf]

theorem toNat_base_of_consumes {t : State} {k : Nat} {es : List Event} (h : Follows fed s) (hfed : fed.length < 2 ^ 64)
    (hcons : Consumes s t k es) : t.base.toNat = s.base.toNat + k := by
  rw [hcons.base, toNat_base_add hcons.le_len (h.length ▸ hfed)]

theorem of_consumes {t : State} {k : Nat} {es : List Event} (h : Follows fed s) (hfed : fed.length < 2 ^ 64)
    (hcons : Consumes s t k es) : Follows fed t where
  length := by
    have hlen := h.length
    have hle := hcons.le_len
    rw [h.toNat_base_of_consumes hfed hcons, hcons.len]
    omega
  buf := by rw [h.toNat_base_of_consumes hfed hcons, hcons.buf, h.buf, List.drop_drop]

/-- A buffered byte is the stream's byte at BASE plus its offset. -/
theorem bufByte (h : Follows fed s) (hpre : fed <+: bs) {j : Nat} (hj : j < s.len) :
    s.bufByte j = bs[s.base.toNat + j]? := by
  have hlen := h.length
  obtain ⟨rest, rfl⟩ := hpre
  rw [State.bufByte, h.buf, List.getElem?_drop, List.getElem?_append_left (by omega)]

theorem take (h : Follows fed s) (hpre : fed <+: bs) {n : Nat} (hn : n ≤ s.len) :
    s.buf.take n = (bs.drop s.base.toNat).take n := by
  have hlen := h.length
  obtain ⟨rest, rfl⟩ := hpre
  rw [h.buf, List.drop_append_of_le_length (by omega), List.take_append_of_le_length (by rw [List.length_drop]; omega)]

/-- A valid frame of the stream that starts in the buffer starts with PRE[0] (R158). -/
theorem bufByte_of_validFrameAt {t : FrameType} {payload : List Byte} {j : Nat} (h : Follows fed s) (hpre : fed <+: bs)
    (hc : s.configuredFor t = true) (hj : j < s.len)
    (hv : ValidFrameAt t s.refSpanLo payload bs (s.base.toNat + j)) : s.bufByte j = some s.cfg.pre0 := by
  have hsize := t.size_bounds.1
  have hfirst : ((bs.drop (s.base.toNat + j)).take t.size)[0]? = some (hiByte t.family.preamble) := by
    rw [hv.2]
    rfl
  rw [List.getElem?_take_of_lt (by omega), List.getElem?_drop] at hfirst
  rw [h.bufByte hpre hj, (header_of_configuredFor hc).1]
  exact hfirst

/-- A valid frame of the stream at BASE that is buffered whole stands at the head. -/
theorem atHead_of_validFrameAt {t : FrameType} {payload : List Byte} (h : Follows fed s) (hpre : fed <+: bs)
    (hc : s.configuredFor t = true) (hfull : s.n ≤ s.len)
    (hv : ValidFrameAt t s.refSpanLo payload bs s.base.toNat) :
    s.atHead t payload (frameChecksum t s.refSpanLo payload) = true := by
  rw [n_of_configuredFor hc] at hfull
  rw [atHead_iff, h.take hpre hfull]
  exact hv.2

end Follows

/-- An internal operation discards no start of a valid frame, or it emits the frame at the head (R93, R158). -/
theorem internal_discards_or_emits {s t : State} (hinv : s.Inv) (h : internal s = .next t) :
    (∀ j < s.len - t.len, s.bufByte j ≠ some s.cfg.pre0 ∨ (j = 0 ∧ s.n ≤ s.len ∧ ¬ s.headValid)) ∨
    (s.n ≤ s.len ∧ s.len - t.len = s.n ∧ s.checksumField = some s.rxReg ∧
      t.evq = s.evq ++ [.frame s.cfg.idx s.base ((s.buf.take (s.n - 2)).drop 4) s.rxReg]) := by
  obtain ⟨op, hop⟩ := exists_enabledOp_of_busy (busy_of_internal h)
  have hperform : perform 0 op s = .next t := (internal_eq_perform 0 hop).symm.trans h
  have hquiet : t.buf = s.buf → ∀ j < s.len - t.len, s.bufByte j ≠ some s.cfg.pre0 ∨
      (j = 0 ∧ s.n ≤ s.len ∧ ¬ s.headValid) := by
    intro hbuf j hj
    rw [State.len, State.len, hbuf, Nat.sub_self] at hj
    exact absurd hj (Nat.not_lt_zero j)
  cases op with
  | push => exact absurd hop (enabledOp_ne_push s)
  | close => exact absurd hop (enabledOp_ne_close s)
  | detect =>
    obtain ⟨-, -, -, -, rfl⟩ := opDetect_eq_next hperform
    exact .inl (hquiet rfl)
  | check =>
    obtain ⟨-, -, -, span, rx, -, -, rfl⟩ := opCheck_eq_next hperform
    exact .inl (hquiet rfl)
  | accept =>
    obtain ⟨-, -, -, -, rfl⟩ := opAccept_eq_next hperform
    exact .inl (hquiet rfl)
  | flush => exact .inl (discardsPassNoFrameStart s t 0 .flush hinv (.inl rfl) hperform)
  | skip => exact .inl (discardsPassNoFrameStart s t 0 .skip hinv (.inr (.inl rfl)) hperform)
  | hslide => exact .inl (discardsPassNoFrameStart s t 0 .hslide hinv (.inr (.inr (.inl rfl))) hperform)
  | slide => exact .inl (discardsPassNoFrameStart s t 0 .slide hinv (.inr (.inr (.inr rfl))) hperform)
  | emit =>
    obtain ⟨hst, hc, -, hfull, payload, hpayload, rfl⟩ := opEmit_eq_next hperform
    obtain ⟨-, -, -, hchecked, -⟩ := hinv
    cases hpayload.symm.trans (payload_eq_some hc ((Nat.sub_le s.n 2).trans hfull))
    refine .inr ⟨hfull, ?_, (hchecked (.inr hst)).2, rfl⟩
    rw [State.len_endEpisode, State.len_emit, Nat.sub_sub_self hfull]

namespace Heals

variable {t : FrameType} {r : RefSpanLo} {bs fed : List Byte} {s : State}

/-- A frame that starts in the bytes an internal operation consumes is emitted, or lies behind the start of the one that is. -/
theorem found_of_internal {u : State} (h : Heals t r bs fed s) (hpre : fed <+: bs) (hint : internal s = .next u)
    {payload : List Byte} {j : Nat} (hj : j < s.len - u.len)
    (hv : ValidFrameAt t s.refSpanLo payload bs (s.base.toNat + j)) :
    (∃ off ∈ frameOffsets u.evq, off < s.base.toNat + j ∧ s.base.toNat + j < off + t.size) ∨
      Event.frame t.idx (BitVec.ofNat 64 (s.base.toNat + j)) payload (frameChecksum t s.refSpanLo payload) ∈ u.evq := by
  have hc := h.configuredFor
  have hn := n_of_configuredFor hc
  have hjlen : j < s.len := by omega
  rcases internal_discards_or_emits h.inv hint with hpass | ⟨hfull, hk, hfield, hevq⟩
  · rcases hpass j hj with hbyte | ⟨rfl, hfull, hbad⟩
    · exact absurd (h.follows.bufByte_of_validFrameAt hpre hc hjlen hv) hbyte
    · exact absurd (headValid_of_atHead hc hv.1 (h.follows.atHead_of_validFrameAt hpre hc hfull hv) rfl) hbad
  · rcases Nat.eq_zero_or_pos j with rfl | hpos
    · have hat := h.follows.atHead_of_validFrameAt hpre hc hfull hv
      have hidx : s.cfg.idx = t.idx := by
        rw [((configuredFor_iff s t).1 hc).2]
        rfl
      rw [payload_of_atHead hc hv.1 hat, hidx,
        Option.some.inj (hfield.symm.trans (checksumField_of_atHead hc hv.1 hat))] at hevq
      rw [hevq, Nat.add_zero, BitVec.ofNat_toNat, BitVec.setWidth_eq]
      exact .inr (List.mem_append_right _ List.mem_cons_self)
    · refine .inl ⟨s.base.toNat, ?_, by omega, by omega⟩
      rw [hevq, frameOffsets_append]
      exact List.mem_append_right _ List.mem_cons_self

theorem of_internal {u : State} (h : Heals t r bs fed s) (hbs : bs.length < 2 ^ 64) (hpre : fed <+: bs)
    (hint : internal s = .next u) : Heals t r bs fed u := by
  obtain ⟨k, es, hcons, -, -⟩ := exists_consumes_of_internal hint
  have hfed : fed.length < 2 ^ 64 := hpre.length_le.trans_lt hbs
  have hbase := h.follows.toNat_base_of_consumes hfed hcons
  have hk : s.len - u.len = k := by rw [hcons.len, Nat.sub_sub_self hcons.le_len]
  refine ⟨internal_keeps_inv h.inv hint, ?_, hcons.refSpanLo.trans h.refSpanLo, h.follows.of_consumes hfed hcons,
    fun pos payload hpos hv => ?_⟩
  · simpa only [State.configuredFor, hcons.cfg, hcons.refSpanLo] using h.configuredFor
  · rw [hcons.refSpanLo] at hv ⊢
    by_cases hold : pos < s.base.toNat
    · rw [hcons.evq, frameOffsets_append]
      rcases h.found pos payload hold hv with ⟨off, hoff, hover⟩ | hmem
      · exact .inl ⟨off, List.mem_append_left _ hoff, hover⟩
      · exact .inr (List.mem_append_left _ hmem)
    · obtain ⟨j, rfl⟩ := Nat.exists_eq_add_of_le (Nat.le_of_not_lt hold)
      exact h.found_of_internal hpre hint (by omega) hv

theorem append (h : Heals t r bs fed s) (b : Byte) (hi : s.idle = true) : Heals t r bs (fed ++ [b]) (s.append b) :=
  ⟨append_keeps_inv b h.inv hi, h.configuredFor, h.refSpanLo, h.follows.append b, h.found⟩

/-- Feeding the stream keeps all of it. -/
theorem of_feed {more : List Byte} {u : State} (hbs : bs.length < 2 ^ 64) (h : Heals t r bs fed s) (hi : s.idle = true)
    (hpre : fed ++ more <+: bs) (hfeed : feed more s = .next u) : Heals t r bs (fed ++ more) u ∧ u.idle = true := by
  induction more generalizing fed s with
  | nil =>
    cases hfeed
    rw [List.append_nil]
    exact ⟨h, hi⟩
  | cons b more ih =>
    obtain ⟨ops, v, hrun, hidle, -, hpush⟩ := exists_pushStar b h.inv hi
    rw [List.append_cons] at hpre ⊢
    have hpre' : fed ++ [b] <+: bs := (List.prefix_append ..).trans hpre
    rw [feed_cons_of_pushStar hpush] at hfeed
    exact ih (hrun.keeps (fun _ _ hs => hs.of_internal hbs hpre') (h.append b hi)) hidle hpre hfeed

end Heals

theorem opReset_refSpanLo (fam : Family) (key : Half) (s : State) : (opReset fam key s).refSpanLo = s.refSpanLo := by
  unfold opReset
  split <;> rfl

/-- RESET starts a stream (R100). -/
theorem heals_opReset {fam : Family} {key : Half} {t : FrameType} (h : lookup fam key = some t) (s : State)
    (bs : List Byte) : Heals t s.refSpanLo bs [] (opReset fam key s) where
  inv := opReset_inv ..
  configuredFor := configuredFor_opReset h s
  refSpanLo := opReset_refSpanLo ..
  follows := by
    rw [opReset_of_lookup_some h]
    exact ⟨rfl, rfl⟩
  found := by
    rw [opReset_of_lookup_some h]
    exact fun pos _ hpos => absurd hpos (Nat.not_lt_zero pos)

/-- After RESET with a supported key the block is idle (R14, R100). -/
theorem idle_opReset {fam : Family} {key : Half} {t : FrameType} (h : lookup fam key = some t) (s : State) :
    (opReset fam key s).idle = true := by
  have hn := n_pos_of_configured ((configured_iff _).2 ⟨t, configuredFor_opReset h s⟩)
  rw [idle_iff]
  refine ⟨?_, ?_⟩
  · rw [opReset_of_lookup_some h]
  · rw [opReset_of_lookup_some h] at hn ⊢
    exact hn

/-! ### Feeding a part of the stream -/

/-- The block after bytes that only fill the buffer. -/
def State.received (s : State) (bs : List Byte) : State := { s with buf := s.buf ++ bs }

theorem len_received (s : State) (bs : List Byte) : (s.received bs).len = s.len + bs.length := List.length_append

theorem feed_append (bs bs' : List Byte) (s : State) : feed (bs ++ bs') s = andThen (feed bs s) (feed bs') := by
  induction bs generalizing s with
  | nil => rfl
  | cons b bs ih =>
    rw [List.cons_append, feed, feed]
    cases pushStar b s with
    | next t => exact ih t
    | fault r => rfl
    | refused r => rfl

/-- Bytes that leave less than a frame in the buffer are only stored (R61, R68). -/
theorem feed_of_short {s : State} (hc : s.configured = true) (hst : s.st = .searching) {bs : List Byte}
    (h : s.len + bs.length < s.n) : feed bs s = .next (s.received bs) := by
  induction bs generalizing s with
  | nil => simp [feed, State.received]
  | cons b bs ih =>
    rw [List.length_cons] at h
    have hlen : (s.append b).len + bs.length < (s.append b).n := by
      rw [State.len_append]
      exact (by omega : s.len + 1 + bs.length < s.n)
    have hi : s.idle = true := (idle_iff s).2 ⟨hst, by omega⟩
    have hi' : (s.append b).idle = true := (idle_iff _).2 ⟨hst, by omega⟩
    rw [feed_cons_of_pushStar (pushStar_of_internalRun hc hi (.nil _) (by decide) hi').1, ih (s := s.append b) hc hst hlen]
    simp [State.received, State.append]

/-- The byte that fills the frame starts the run of the full buffer (R104). -/
theorem feed_to_full {s t : State} {ops : List Op} {bs : List Byte} (hc : s.configured = true)
    (hst : s.st = .searching) (hlt : s.len < s.n) (hfull : s.len + bs.length = s.n)
    (hrun : InternalRun (s.received bs) ops t) (hops : ops.length ≤ 4) (ht : t.idle = true) :
    feed bs s = .next t := by
  obtain rfl | ⟨init, b, rfl⟩ := List.eq_nil_or_concat bs
  · rw [List.length_nil] at hfull
    omega
  · rw [List.concat_eq_append] at hrun hfull ⊢
    rw [List.length_append, List.length_singleton] at hfull
    have hinit : s.len + init.length < s.n := by omega
    have hi : (s.received init).idle = true := (idle_iff _).2 ⟨hst, by rw [len_received]; exact hinit⟩
    have happ : (s.received init).append b = s.received (init ++ [b]) := by
      simp [State.received, State.append]
    rw [← happ] at hrun
    rw [feed_append, feed_of_short hc hst hinit, andThen_next,
      feed_cons_of_pushStar (pushStar_of_internalRun (s := s.received init) hc hi hrun hops ht).1]
    rfl

theorem inSpec_received {s : State} {bs : List Byte} (hc : s.configured = true) (hfull : s.len + bs.length = s.n) :
    (s.received bs).InSpec := by
  refine ⟨hc, ?_⟩
  rw [len_received, hfull]
  exact Nat.le_mul_of_pos_left _ (by decide)

theorem buildFrame_length {t : FrameType} {r : RefSpanLo} {payload : List Byte} (h : payload.length = t.payloadLen) :
    (buildFrame t r payload).length = t.size :=
  encodeFrame_length h _

/-- The bytes that complete a valid frame in the buffer give its FRAME event (R93). -/
theorem feed_completes_frame {s : State} {t : FrameType} {payload bs : List Byte} (hc : s.configuredFor t = true)
    (hst : s.st = .searching) (hlt : s.len < s.n) (hpay : payload.length = t.payloadLen)
    (hbs : s.buf ++ bs = buildFrame t s.refSpanLo payload) :
    ∃ u, feed bs s = .next u ∧
      u.evq = s.evq ++ [.frame t.idx s.base payload (frameChecksum t s.refSpanLo payload)] ∧
      u.st = .searching ∧ u.len = 0 ∧ u.lost = false := by
  have hconf := (configured_iff s).2 ⟨t, hc⟩
  have hn := n_of_configuredFor hc
  have hfull : s.len + bs.length = s.n := by
    rw [hn, ← buildFrame_length (r := s.refSpanLo) hpay, ← hbs, List.length_append, State.len]
  have hat : (s.received bs).atHead t payload (frameChecksum t s.refSpanLo payload) = true := by
    rw [atHead_iff]
    change (s.buf ++ bs).take t.size = _
    rw [hbs, ← buildFrame_length (r := s.refSpanLo) hpay, List.take_length]
    rfl
  have hrun := internalRun_of_valid_frame (s := s.received bs) (inSpec_received hconf hfull) hc hpay hat hst
    (headChecksum_of_atHead (s := s.received bs) hc hpay hat)
  have hleft : (s.received bs).len - s.n = 0 := by rw [len_received, hfull, Nat.sub_self]
  have hidle := (idle_endEpisode_iff ({ (s.received bs).afterCheck (frameChecksum t s.refSpanLo payload) with
    st := .emitting }.emit (.frame s.cfg.idx s.base payload (frameChecksum t s.refSpanLo payload))) s.n).2
    (hleft.trans_lt (n_pos_of_configured hconf))
  refine ⟨_, feed_to_full hconf hst hlt hfull hrun (by decide) hidle, ?_, rfl, ?_, rfl⟩
  · have hidx : s.cfg.idx = t.idx := by
      rw [((configuredFor_iff s t).1 hc).2]
      rfl
    exact congrArg (fun i => s.evq ++ [.frame i s.base payload (frameChecksum t s.refSpanLo payload)]) hidx
  · exact (State.len_endEpisode ..).trans hleft

/-! ### Garbage before a frame -/

/-- The loss that garbage without PRE[0] is reported as: skipped when less than a frame, else flushed (R73, R95 (c)). -/
def garbageLoss (t : FrameType) (base : Offset) (length : Nat) : Event :=
  if length < t.size then .syncLoss .skipped base (BitVec.ofNat 9 length) 0 0
  else .syncLoss .noPreamble base (BitVec.ofNat 9 t.size) 0 0

/-- `v` is the block `s` after a discard of `k` bytes that leaves `left`, reported as `loss` unless LOST was set (R73). -/
structure AfterDiscard (s v : State) (left : List Byte) (k : Nat) (loss : Event) : Prop where
  configuredFor : ∀ t, v.configuredFor t = s.configuredFor t
  cfg : v.cfg = s.cfg
  refSpanLo : v.refSpanLo = s.refSpanLo
  st : v.st = .searching
  buf : v.buf = left
  base : v.base = s.base + BitVec.ofNat 64 k
  lost : v.lost = true
  evq : v.evq = s.evq ++ if s.lost = true then [] else [loss]

theorem AfterDiscard.of_takeSyncLoss (s : State) (bs : List Byte) {r : Reason} (hr : r ≠ .checksumMismatch)
    (len k : Nat) : AfterDiscard s ((s.received bs).takeSyncLoss r len 0 0 k) ((s.buf ++ bs).drop k) k
      (.syncLoss r s.base (BitVec.ofNat 9 len) 0 0) where
  configuredFor t := by
    simp only [State.configuredFor, State.takeSyncLoss_cfg, State.takeSyncLoss_refSpanLo]
    rfl
  cfg := State.takeSyncLoss_cfg ..
  refSpanLo := State.takeSyncLoss_refSpanLo ..
  st := State.takeSyncLoss_st ..
  buf := State.takeSyncLoss_buf ..
  base := State.takeSyncLoss_base ..
  lost := State.takeSyncLoss_lost ..
  evq := by
    rw [State.takeSyncLoss_evq]
    change (if r.reported s.lost = true then s.evq ++ [_] else s.evq) = _
    cases r with
    | checksumMismatch => exact absurd rfl hr
    | noPreamble | skipped | headerMismatch => cases s.lost <;> simp [Reason.reported, State.received]

/-- A frame's size of garbage in an empty buffer is flushed (R70). -/
theorem feed_flushes {s : State} {bs : List Byte} (hc : s.configured = true) (hst : s.st = .searching)
    (hempty : s.buf = []) (hfull : bs.length = s.n) (hpre : s.cfg.pre0 ∉ bs) :
    ∃ v, feed bs s = .next v ∧
      AfterDiscard s v [] s.n (.syncLoss .noPreamble s.base (BitVec.ofNat 9 s.n) 0 0) := by
  have hlen : s.len = 0 := by rw [State.len, hempty, List.length_nil]
  have hn := n_pos_of_configured hc
  have hfull' : s.len + bs.length = s.n := by omega
  have hlen' : (s.received bs).len = s.n := (len_received ..).trans hfull'
  have hbuf : (s.received bs).cfg.pre0 ∉ (s.received bs).buf := by
    change s.cfg.pre0 ∉ s.buf ++ bs
    rwa [hempty, List.nil_append]
  have hrun := internalRun_flush (inSpec_received hc hfull') hst hlen'.ge (not_headerStands_of_pre0_not_mem hbuf) hbuf
  have hidle := (idle_takeSyncLoss_iff (s.received bs) .noPreamble (s.received bs).len 0 0 (s.received bs).len).2
    ((Nat.sub_self _).trans_lt hn)
  refine ⟨_, feed_to_full hc hst (by omega) hfull' hrun (by decide) hidle, ?_⟩
  have hafter := AfterDiscard.of_takeSyncLoss s bs (r := .noPreamble) (by decide) s.n s.n
  rw [hempty, List.nil_append, List.drop_eq_nil_of_le hfull.le] at hafter
  rw [hlen']
  exact hafter

/-- Less garbage, followed by PRE[0] and more, is skipped when the buffer is full (R71). -/
theorem feed_skips {s : State} {garbage bs : List Byte} (hc : s.configured = true) (hst : s.st = .searching)
    (hempty : s.buf = []) (hne : garbage ≠ []) (hfull : garbage.length + bs.length = s.n)
    (hpre : s.cfg.pre0 ∉ garbage) (hfirst : bs[0]? = some s.cfg.pre0) :
    ∃ v, feed (garbage ++ bs) s = .next v ∧
      AfterDiscard s v bs garbage.length (.syncLoss .skipped s.base (BitVec.ofNat 9 garbage.length) 0 0) := by
  have hlen : s.len = 0 := by rw [State.len, hempty, List.length_nil]
  have hpos := List.length_pos_of_ne_nil hne
  have hfull' : s.len + (garbage ++ bs).length = s.n := by rw [List.length_append]; omega
  have hlen' : (s.received (garbage ++ bs)).len = s.n := (len_received ..).trans hfull'
  have hbyte : ∀ i, (s.received (garbage ++ bs)).bufByte i = (garbage ++ bs)[i]? := by
    intro i
    change (s.buf ++ (garbage ++ bs))[i]? = _
    rw [hempty, List.nil_append]
  have hk : (s.received (garbage ++ bs)).firstPreambleAt garbage.length := by
    refine ⟨?_, fun j hj hb => ?_⟩
    · rw [hbyte, List.getElem?_append_right le_rfl, Nat.sub_self]
      exact hfirst
    · rw [hbyte, List.getElem?_append_left hj] at hb
      exact hpre (List.mem_of_getElem? hb)
  have hh : ¬ (s.received (garbage ++ bs)).headerStands := fun hh => hk.2 0 hpos hh.1
  have hrun := internalRun_skip (inSpec_received hc hfull') hst hlen'.ge hh hpos hk
  have hleft : s.n - garbage.length < s.n := Nat.sub_lt (n_pos_of_configured hc) hpos
  have hidle := (idle_takeSyncLoss_iff (s.received (garbage ++ bs)) .skipped garbage.length 0 0 garbage.length).2
    (hlen'.symm ▸ hleft)
  refine ⟨_, feed_to_full hc hst (by omega) hfull' hrun (by decide) hidle, ?_⟩
  have hafter := AfterDiscard.of_takeSyncLoss s (garbage ++ bs) (r := .skipped) (by decide) garbage.length garbage.length
  rw [hempty, List.nil_append, List.drop_left] at hafter
  exact hafter

/-- Garbage of less than a frame, then a frame: at most the one SYNCLOSS of the skip (R95 (c)). -/
theorem feed_short_garbage_then_frame {s : State} {t : FrameType} {garbage payload : List Byte}
    (hc : s.configuredFor t = true) (hst : s.st = .searching) (hempty : s.buf = []) (hpay : payload.length = t.payloadLen)
    (hpre : s.cfg.pre0 ∉ garbage) (hne : garbage ≠ []) (hshort : garbage.length < t.size) :
    ∃ u, feed (garbage ++ buildFrame t s.refSpanLo payload) s = .next u ∧
      u.evq = s.evq ++ (if s.lost = true then [] else [garbageLoss t s.base garbage.length]) ++
        [.frame t.idx (s.base + BitVec.ofNat 64 garbage.length) payload (frameChecksum t s.refSpanLo payload)] ∧
      u.st = .searching ∧ u.len = 0 ∧ u.lost = false := by
  have hn := n_of_configuredFor hc
  have hsize := buildFrame_length (r := s.refSpanLo) hpay
  obtain ⟨front, back, hsplit, hfront⟩ : ∃ front back, buildFrame t s.refSpanLo payload = front ++ back ∧
      front.length = t.size - garbage.length := by
    refine ⟨_, _, (List.take_append_drop (t.size - garbage.length) _).symm, ?_⟩
    rw [List.length_take, hsize]
    omega
  have hfirst : front[0]? = some s.cfg.pre0 := by
    rw [(header_of_configuredFor hc).1, ← List.getElem?_append_left (l₂ := back) (by omega), ← hsplit]
    rfl
  have hpos := List.length_pos_of_ne_nil hne
  obtain ⟨v, hskip, hafter⟩ := feed_skips ((configured_iff s).2 ⟨t, hc⟩) hst hempty hne (by omega) hpre hfirst
  have hc' := (hafter.configuredFor t).trans hc
  have hlt : v.len < v.n := by
    rw [n_of_configuredFor hc', State.len, hafter.buf, hfront]
    omega
  obtain ⟨u, hfeed, hevq, hend⟩ := feed_completes_frame (bs := back) hc' hafter.st hlt hpay
    (by rw [hafter.buf, hafter.refSpanLo, hsplit])
  refine ⟨u, ?_, ?_, hend⟩
  · rw [hsplit, ← List.append_assoc, feed_append, hskip, andThen_next, hfeed]
  · rw [hevq, hafter.evq, hafter.base, hafter.refSpanLo, garbageLoss, if_pos hshort]

/-- Garbage of any length, then a frame: at most one SYNCLOSS, of the first discard (R73, R95 (c)). -/
theorem feed_garbage_then_frame {t : FrameType} {payload : List Byte} (hpay : payload.length = t.payloadLen)
    (garbage : List Byte) (s : State) (hc : s.configuredFor t = true) (hst : s.st = .searching) (hempty : s.buf = [])
    (hpre : s.cfg.pre0 ∉ garbage) :
    ∃ u, feed (garbage ++ buildFrame t s.refSpanLo payload) s = .next u ∧
      u.evq = s.evq ++ (if garbage = [] ∨ s.lost = true then [] else [garbageLoss t s.base garbage.length]) ++
        [.frame t.idx (s.base + BitVec.ofNat 64 garbage.length) payload (frameChecksum t s.refSpanLo payload)] ∧
      u.st = .searching ∧ u.len = 0 ∧ u.lost = false := by
  induction hg : garbage.length using Nat.strong_induction_on generalizing garbage s with
  | _ g ih =>
    subst hg
    have hconf := (configured_iff s).2 ⟨t, hc⟩
    have hn := n_of_configuredFor hc
    by_cases hnil : garbage = []
    · subst hnil
      have hlt : s.len < s.n := by
        rw [State.len, hempty]
        exact n_pos_of_configured hconf
      obtain ⟨u, hfeed, hevq, hend⟩ := feed_completes_frame hc hst hlt hpay (by rw [hempty, List.nil_append])
      exact ⟨u, hfeed, by simpa using hevq, hend⟩
    · by_cases hshort : garbage.length < t.size
      · simpa only [hnil, false_or] using feed_short_garbage_then_frame hc hst hempty hpay hpre hnil hshort
      · obtain ⟨chunk, rest, rfl, hchunk⟩ : ∃ chunk rest, garbage = chunk ++ rest ∧ chunk.length = t.size :=
          ⟨_, _, (List.take_append_drop t.size garbage).symm, by rw [List.length_take]; omega⟩
        have hsize := t.size_bounds.1
        rw [List.mem_append, not_or] at hpre
        rw [List.length_append] at ih hshort ⊢
        obtain ⟨v, hflush, hafter⟩ := feed_flushes hconf hst hempty (hchunk.trans hn.symm) hpre.1
        obtain ⟨u, hfeed, hevq, hend⟩ := ih rest.length (by omega) rest v ((hafter.configuredFor t).trans hc) hafter.st
          hafter.buf (hafter.cfg ▸ hpre.2) rfl
        refine ⟨u, ?_, ?_, hend⟩
        · rw [List.append_assoc, feed_append, hflush, andThen_next, ← hafter.refSpanLo, hfeed]
        · rw [hevq, hafter.evq, hafter.base, hafter.refSpanLo, hafter.lost, garbageLoss, garbageLoss, if_neg hshort,
            BitVec.add_assoc, ← BitVec.ofNat_add, hn, hchunk]
          simp only [or_true, if_true, List.append_nil, hnil, false_or]

end Sys2Proof.Machine

namespace Sys2Proof

open Machine

/-- Settles O32: at the end less than a frame is buffered, so the valid frame starts below BASE, where none is lost. -/
theorem validFramesAreNotLost : Obligations.ValidFramesAreNotLost := by
  intro fam key t s u bs payload pos hkey hbs hv hfeed hover
  obtain ⟨hheals, hidle⟩ := (heals_opReset hkey s bs).of_feed hbs (idle_opReset hkey s) List.prefix_rfl hfeed
  have hend : pos + t.size ≤ bs.length := by
    have hlen := congrArg List.length hv.2
    have hsize := t.size_bounds.1
    rw [buildFrame_length hv.1, List.length_take, List.length_drop] at hlen
    omega
  have hpos : pos < u.base.toNat := by
    have hlen := hheals.follows.length
    have hlt := ((idle_iff u).1 hidle).2
    rw [n_of_configuredFor hheals.configuredFor] at hlt
    rw [List.nil_append] at hlen
    omega
  rw [← hheals.refSpanLo] at hv ⊢
  rcases hheals.found pos payload hpos hv with ⟨off, hoff, h⟩ | hmem
  · exact absurd h (hover off hoff)
  · exact hmem

/-- Settles O33: RESET leaves an empty buffer with LOST = 0, so the first discard of the garbage is the one reported. -/
theorem garbageThenFrameGivesOneFrame : Obligations.GarbageThenFrameGivesOneFrame := by
  intro fam key t s garbage payload hkey _ hpre hpay
  have hc := configuredFor_opReset hkey s
  have hpre' : (opReset fam key s).cfg.pre0 ∉ garbage := by
    rw [(header_of_configuredFor hc).1]
    exact hpre
  have hbuf : (opReset fam key s).buf = [] := by rw [opReset_of_lookup_some hkey]; rfl
  obtain ⟨u, hfeed, hevq, hend⟩ := feed_garbage_then_frame hpay garbage (opReset fam key s) hc
    ((idle_iff _).1 (idle_opReset hkey s)).1 hbuf hpre'
  rw [opReset_refSpanLo] at hfeed hevq
  refine ⟨u, hfeed, hevq.trans ?_, hend⟩
  have hbase : (opReset fam key s).base = 0 := by rw [opReset_of_lookup_some hkey]; rfl
  have hlost : (opReset fam key s).lost = false := by rw [opReset_of_lookup_some hkey]; rfl
  rw [opReset_evq, hbase, hlost, List.nil_append]
  simp only [Bool.false_eq_true, or_false, garbageLoss]
  split_ifs <;> simp

end Sys2Proof
end
